-- ==== Sys2Proof/Word.lean ====
section
/-! DEFINITION. The word types of the block: the widths of 00_scope.md R10 and 20_memory.md R40. -/

namespace Sys2Proof

/-- A command word: CMD_BITS = 48 bits (00_scope.md R10, 30_encoding.md R60). -/
abbrev CmdWord := BitVec 48

/-- A byte: a device address, a register address, a bus data byte, the opcode and the channel operand
(CH_BITS = 8, MODE1_READ_BITS = 8; 00_scope.md R10). -/
abbrev Byte := BitVec 8

/-- A 16-bit operand: freq, angle, pulse, on, off (OPERAND_BITS = 16; 00_scope.md R10). -/
abbrev Operand := BitVec 16

end Sys2Proof
end

