-- ==== Sys2Proof/Config.lean ====
section
/-! DEFINITION. The configuration constants of 00_scope.md R7, R8, R9 as one record with the spec's values,
and the free values of 00_scope.md R11 and 10_state.md R24, opaque constants of which nothing is known. -/

namespace Sys2Proof

/-- The block's constants (00_scope.md R7, R8, R9), under the spec's names. The spec's numeric literals are
not audited against the repository (R3). UNVERIFIED, unsafe: notes/assumptions/12.md. -/
structure Config where
  /-- OSC_HZ: internal oscillator clock of the PCA9685, in Hz. -/
  oscHz : Nat := 25000000
  /-- TICKS: ticks per PWM period. -/
  ticks : Nat := 4096
  /-- PERIOD_US: servo PWM period in microseconds. -/
  periodUs : Nat := 20000
  /-- DEFAULT_FREQ_HZ: frequency set by INIT. -/
  defaultFreqHz : Nat := 50
  /-- ANGLE_SPAN_US: pulse-width span for the full angle range. -/
  angleSpanUs : Nat := 1800
  /-- ANGLE_SPAN_DEG: angle range in degrees. -/
  angleSpanDeg : Nat := 180
  /-- PULSE_OFFSET_US: pulse width at angle 0. -/
  pulseOffsetUs : Nat := 600
  /-- MODE1_INIT: value INIT writes to MODE1. -/
  mode1Init : Byte := 0x00#8
  /-- MODE1_SLEEP: MODE1 sleep bit (bit 4). -/
  mode1Sleep : Byte := 0x10#8
  /-- MODE1_WAKE_SET: bits ORed into MODE1 at the end of SET_FREQ. -/
  mode1WakeSet : Byte := 0xA1#8
  /-- OSC_SETTLE_US: minimum wait after waking the oscillator. -/
  oscSettleUs : Nat := 5000
  /-- INIT_CH0_ON: on tick INIT writes to channel 0. -/
  initCh0On : Nat := 0
  /-- INIT_CH0_OFF: off tick INIT writes to channel 0. -/
  initCh0Off : Nat := 4095
  /-- INIT_CHN_ON: on tick INIT writes to channels 1 to 15. -/
  initChnOn : Nat := 0
  /-- INIT_CHN_OFF: off tick INIT writes to channels 1 to 15. -/
  initChnOff : Nat := 0
  /-- DEV_ADDR: 7-bit two-wire address of the PCA9685, carried in a byte (20_memory.md R40). -/
  devAddr : Byte := 0x40#8
  /-- REG_MODE1: MODE1 register address. -/
  regMode1 : Byte := 0x00#8
  /-- REG_PRESCALE: PRESCALE register address. -/
  regPrescale : Byte := 0xFE#8
  /-- REG_LED0_ON_L: channel 0 ON-low register address. -/
  regLed0OnL : Byte := 0x06#8
  /-- LED_STRIDE: registers per channel. -/
  ledStride : Nat := 4
  /-- NUM_CHANNELS: valid channels are 0 to NUM_CHANNELS - 1 (00_scope.md R9). -/
  numChannels : Nat := 16
  deriving DecidableEq, Repr

/-- The configuration of this hardware: every constant at the value 00_scope.md R7, R8, R9 give it. -/
def Config.hw : Config := {}

/-- Free value: the byte a read of MODE1 returns when State.reads gives none (ReadOracle, 00_scope.md R11,
20_memory.md R47: "any byte 0x00 to 0xFF"). DESIGN CHOICE, safe: notes/assumptions/4.md. -/
opaque Config.readOracle : Nat → Byte

/-- Free value: by how many microseconds a wait outlasts its minimum when State.delays does not say
(DelayActual, 00_scope.md R11, 60_exceptions.md R140). DESIGN CHOICE, safe: notes/assumptions/5.md. -/
opaque Config.delayExcess : Nat → Nat

/-- Free value: whether a bus transaction succeeds when State.acks does not say (TransportOutcome,
00_scope.md R11, 20_memory.md R49). DESIGN CHOICE, safe: notes/assumptions/6.md. -/
opaque Config.transportOutcome : Nat → Bool

/-- Free value: OLDMODE after its last reader (10_state.md R24). DESIGN CHOICE, safe: notes/assumptions/7.md. -/
opaque Config.freeOldmode : Nat → BitVec 8

/-- Free value: PRESC after its last reader (10_state.md R24). DESIGN CHOICE, safe: notes/assumptions/7.md. -/
opaque Config.freePresc : Nat → BitVec 8

/-- Free value: PULSE after its last reader (10_state.md R24). DESIGN CHOICE, safe: notes/assumptions/7.md. -/
opaque Config.freePulse : Nat → BitVec 20

/-- Free value: DUTY after its last reader (10_state.md R24). DESIGN CHOICE, safe: notes/assumptions/7.md. -/
opaque Config.freeDuty : Nat → BitVec 18

end Sys2Proof
end

