-- ==== Sys2Proof/Syntax.lean ====
section
/-! DEFINITION. The commands of the block (30_encoding.md R63), the raw fields of a command word (R61), and
the mnemonics of its assembler text (R69). -/

namespace Sys2Proof

/-- The five commands (00_scope.md R2, 30_encoding.md R63), one constructor per row of the opcode table.
Every operand is the raw field, unsigned, at its full width (R62): a channel of 16 to 255 is a legal operand. -/
inductive Instr where
  /-- INIT: no operand (40_init.md R80). -/
  | init
  /-- SET_FREQ: a frequency in Hz (41_prescale.md R96). -/
  | setFreq (freq : Operand)
  /-- SET_PWM: a channel and its on and off ticks (42_channel_load.md R109). -/
  | setPwm (ch : Byte) (on off : Operand)
  /-- SERVO: a channel and an angle in degrees (43_servo.md R117). -/
  | servo (ch : Byte) (angle : Operand)
  /-- SERVO_PULSE: a channel and a pulse width in microseconds (43_servo.md R118). -/
  | servoPulse (ch : Byte) (pulse : Operand)
  deriving DecidableEq, Repr

/-- The fields of a command word in the one format CMD48 (30_encoding.md R61). -/
structure CmdFields where
  /-- OP, bits 47:40. -/
  op : Byte
  /-- CH, bits 39:32. -/
  ch : Byte
  /-- A, bits 31:16. -/
  a : Operand
  /-- B, bits 15:0. -/
  b : Operand
  deriving DecidableEq, Repr

/-- The mnemonics of the assembler text (30_encoding.md R69). -/
inductive Mnemonic where
  | init
  | setFreq
  | setPwm
  | servo
  | servoPulse
  deriving DecidableEq, Repr

end Sys2Proof
end

