-- ==== Sys2Proof/WellFormed.lean ====
section
/-! DEFINITION. When the fields of a command word are well formed: a listed opcode (30_encoding.md R63) and
every must-be-0 field 0 (R63, R67); and the declared operand ranges, which the block does not enforce
(43_servo.md R120) and the host is to keep (70_reset_and_hazards.md R158). -/

namespace Sys2Proof

/-- The opcode is one of 0x01 to 0x05 (30_encoding.md R63, R66). -/
def CmdFields.legalOp (f : CmdFields) : Bool :=
  decide (1 ≤ f.op.toNat ∧ f.op.toNat ≤ 5)

/-- Every field the opcode says must be 0 is 0 (30_encoding.md R63). It says nothing for an illegal opcode. -/
def CmdFields.reservedZero (f : CmdFields) : Bool :=
  (f.op != 0x01#8 || (f.ch == 0#8 && f.a == 0#16 && f.b == 0#16)) &&
  (f.op != 0x02#8 || (f.ch == 0#8 && f.a == 0#16)) &&
  (f.op != 0x04#8 || f.a == 0#16) &&
  (f.op != 0x05#8 || f.a == 0#16)

/-- The fields of a command word that selects a command (30_encoding.md R63, R66, R67). -/
def CmdFields.wellFormed (f : CmdFields) : Bool := f.legalOp && f.reservedZero

/-- The declared operand ranges: a channel of 0 to 15 (00_scope.md R9), an angle of 0 to 180
(43_servo.md R117), a pulse width of 500 to 2500 (R118), a frequency with a legal prescale
(41_prescale.md R94). The block checks none of the channel, angle and pulse ranges by a fault (R120). -/
def Instr.inDeclaredRange : Instr → Bool
  | .init => true
  | .setFreq freq => decide (24 ≤ freq.toNat ∧ freq.toNat ≤ 6103)
  | .setPwm ch _ _ => decide (ch.toNat ≤ 15)
  | .servo ch angle => decide (ch.toNat ≤ 15 ∧ angle.toNat ≤ 180)
  | .servoPulse ch pulse => decide (ch.toNat ≤ 15 ∧ 500 ≤ pulse.toNat ∧ pulse.toNat ≤ 2500)

end Sys2Proof
end

