-- ==== Sys2Proof/Decode.lean ====
section
/-! DEFINITION. Decoding a command word (30_encoding.md R61 to R67), total on every 48-bit word, and the
encoder, written from the same tables. -/

namespace Sys2Proof

/-- Why a command word selects no command (30_encoding.md R65). -/
inductive DecodeFault where
  /-- The opcode is not listed (30_encoding.md R66). -/
  | illegalOpcode
  /-- The opcode is legal and a must-be-0 field is not 0 (30_encoding.md R67). -/
  | reservedField
  deriving DecidableEq, Repr

/-- The fields of a command word: OP = w[47:40], CH = w[39:32], A = w[31:16], B = w[15:0]
(30_encoding.md R61, R62). -/
def CmdFields.ofWord (w : CmdWord) : CmdFields where
  op := w.extractLsb' 40 8
  ch := w.extractLsb' 32 8
  a := w.extractLsb' 16 16
  b := w.extractLsb' 0 16

/-- Decode (30_encoding.md R65) on the fields of the word. -/
def decodeFields (f : CmdFields) : Except DecodeFault Instr :=
  if f.op = 0x01#8 then
    if f.ch ≠ 0#8 ∨ f.a ≠ 0#16 ∨ f.b ≠ 0#16 then .error .reservedField else .ok .init
  else if f.op = 0x02#8 then
    if f.ch ≠ 0#8 ∨ f.a ≠ 0#16 then .error .reservedField else .ok (.setFreq f.b)
  else if f.op = 0x03#8 then
    .ok (.setPwm f.ch f.a f.b)
  else if f.op = 0x04#8 then
    if f.a ≠ 0#16 then .error .reservedField else .ok (.servo f.ch f.b)
  else if f.op = 0x05#8 then
    if f.a ≠ 0#16 then .error .reservedField else .ok (.servoPulse f.ch f.b)
  else .error .illegalOpcode

/-- Decode of a command word (30_encoding.md R65). -/
def decode (w : CmdWord) : Except DecodeFault Instr := decodeFields (CmdFields.ofWord w)

/-- The fields each command is encoded with (30_encoding.md R63): 0 in every field it does not name. -/
def Instr.fields : Instr → CmdFields
  | .init => ⟨0x01#8, 0#8, 0#16, 0#16⟩
  | .setFreq freq => ⟨0x02#8, 0#8, 0#16, freq⟩
  | .setPwm ch on off => ⟨0x03#8, ch, on, off⟩
  | .servo ch angle => ⟨0x04#8, ch, 0#16, angle⟩
  | .servoPulse ch pulse => ⟨0x05#8, ch, 0#16, pulse⟩

/-- The command word of the fields, OP first (30_encoding.md R61). -/
def CmdFields.toWord (f : CmdFields) : CmdWord := f.op ++ f.ch ++ f.a ++ f.b

/-- The command word of a command (30_encoding.md R61, R63). -/
def encode (i : Instr) : CmdWord := i.fields.toWord

/-- A command is well formed when the fields it is encoded with are (30_encoding.md R63). Every value of
Instr is: its operands have the widths of their fields and it leaves every must-be-0 field 0. -/
def Instr.wellFormed (i : Instr) : Bool := i.fields.wellFormed

/-- A row of the opcode table: the word w selects the command when w AND mask is match (30_encoding.md R64). -/
structure OpRow where
  mnemonic : Mnemonic
  pattern : CmdWord
  mask : CmdWord
  deriving DecidableEq, Repr

/-- The five rows of the opcode table (30_encoding.md R64). -/
def opTable : List OpRow :=
  [⟨.init, 0x010000000000#48, 0xFFFFFFFFFFFF#48⟩,
   ⟨.setFreq, 0x020000000000#48, 0xFFFFFFFF0000#48⟩,
   ⟨.setPwm, 0x030000000000#48, 0xFF0000000000#48⟩,
   ⟨.servo, 0x040000000000#48, 0xFF00FFFF0000#48⟩,
   ⟨.servoPulse, 0x050000000000#48, 0xFF00FFFF0000#48⟩]

/-- The word selects the row's command (30_encoding.md R64). -/
def OpRow.selects (r : OpRow) (w : CmdWord) : Bool := w &&& r.mask == r.pattern

/-- The mnemonic of a command (30_encoding.md R63). -/
def Instr.mnemonic : Instr → Mnemonic
  | .init => .init
  | .setFreq _ => .setFreq
  | .setPwm _ _ _ => .setPwm
  | .servo _ _ => .servo
  | .servoPulse _ _ => .servoPulse

/-- The command the decoder reads from a word of the opcode table: nbits low bits of w, every bit above them
0, as one command word. There is no word longer than 48 bits (30_encoding.md R60), so a longer one is none. -/
def decodeTableWord (nbits w : Nat) : Option Instr :=
  if nbits ≤ 48 then
    match decode (BitVec.ofNat 48 (w % 2 ^ nbits)) with
    | .ok i => some i
    | .error _ => none
  else none

end Sys2Proof
end

