-- ==== Sys2Proof/Machine/State.lean ====
section
/-! DEFINITION. The state of the block as plain data (10_state.md R20 to R30), the events of its bus trace
(R26), what reaches it from outside, the reasons a step can stop, and the state after reset (R30). -/

namespace Sys2Proof.Machine

/-- A bus event, each a call of one primitive of the transport (10_state.md R26, 20_memory.md R41). -/
inductive BusEvent where
  /-- Wr(dev, reg, v): a one-register write. -/
  | wr (dev reg v : Byte)
  /-- WrBlk(dev, [reg, d0, d1, d2, d3]): one block-write transaction; di goes to register reg + i. -/
  | wrBlk (dev reg d0 d1 d2 d3 : Byte)
  /-- Rd(dev, reg, v): a one-register read that returned v. -/
  | rd (dev reg v : Byte)
  /-- Dly(us): a blocking wait of at least us microseconds. -/
  | dly (us : Nat)
  deriving DecidableEq, Repr

/-- What reaches the block from outside between two commands: a command word of the host (10_state.md R25) or
a reset (70_reset_and_hazards.md R150). DESIGN CHOICE: notes/assumptions/1.md, notes/assumptions/3.md. -/
inductive HostInput where
  | command (w : CmdWord)
  | reset
  deriving DecidableEq, Repr

/-- The fault causes of 60_exceptions.md R132. -/
inductive FaultCause where
  /-- ILLEGAL_OPCODE: raised by any word with OP = 0x00 or 0x06 to 0xFF. -/
  | illegalOpcode
  /-- RESERVED_FIELD: raised by INIT, SET_FREQ, SERVO, SERVO_PULSE with a must-be-0 field that is not 0. -/
  | reservedField
  /-- FREQ_ZERO: raised by SET_FREQ with frequency 0. -/
  | freqZero
  /-- PRESCALE_RANGE: raised by SET_FREQ when the prescale does not fit in a byte. -/
  | prescaleRange
  /-- DUTY_RANGE: raised by SERVO on a valid channel when the duty tick does not fit in 16 bits. -/
  | dutyRange
  deriving DecidableEq, Repr

/-- The state of the block. INITIALIZED and FAULT are the persistent state (10_state.md R20, R21, R27), the four
latches exist during one command (R24), trace is its visible behaviour (R26). The rest holds what comes from
outside (00_scope.md R11, 10_state.md R25) and is the model's own. -/
structure State where
  /-- INITIALIZED, 1 bit (10_state.md R20). -/
  initialized : Bool
  /-- FAULT, 3 bits: a cause code, 0 for no fault (10_state.md R21, 60_exceptions.md R132). -/
  fault : BitVec 3
  /-- OLDMODE, 8 bits: the byte the MODE1 read of SET_FREQ returned (10_state.md R24). -/
  oldmode : BitVec 8
  /-- PRESC, 8 bits: the prescale (10_state.md R24). -/
  presc : BitVec 8
  /-- PULSE, 20 bits: the pulse width of SERVO, in microseconds (10_state.md R24). -/
  pulse : BitVec 20
  /-- DUTY, 18 bits: the duty tick of SERVO and SERVO_PULSE (10_state.md R24). -/
  duty : BitVec 18
  /-- The bus events since reset, oldest first (10_state.md R26). -/
  trace : List BusEvent
  /-- What the host has still to issue, next first (10_state.md R25); notes/assumptions/1.md. -/
  pending : List HostInput
  /-- The bytes the coming reads return, next first; beyond it Config.readOracle (20_memory.md R47);
  notes/assumptions/4.md. -/
  reads : List Byte
  /-- The microseconds by which the coming waits outlast their minimum, next first; beyond it
  Config.delayExcess (60_exceptions.md R140); notes/assumptions/5.md. -/
  delays : List Nat
  /-- The outcomes of the coming bus transactions, next first; beyond it Config.transportOutcome
  (20_memory.md R49); notes/assumptions/6.md. -/
  acks : List Bool
  /-- The real lengths of the waits since reset, in microseconds, oldest first (60_exceptions.md R140). -/
  waits : List Nat
  /-- The transport's reports of the transactions since reset, oldest first; the block never reads it
  (20_memory.md R49). -/
  acked : List Bool
  /-- How many reads the block has made, the place of the next one in Config.readOracle; the model's own counter;
  notes/assumptions/8.md. -/
  readCount : Nat
  /-- How many other free values have been taken; the model's own counter; notes/assumptions/8.md. -/
  draws : Nat
  deriving DecidableEq, Repr

/-- The one reason a step of this block stops. -/
inductive Fault where
  /-- FAULT is not 0: the block takes no step and is stuck until reset (60_exceptions.md R133). Raised by the
  step, and by every meaning, in a faulted state; code is what FAULT holds. Safe. -/
  | blockFaulted (code : BitVec 3)
  deriving DecidableEq, Repr

/-- The reasons an instruction is refused: none is left. -/
inductive Refusal where
  /-- An instruction with no meaning yet, by its mnemonic. Raised by exec's refused arms only (there are none). Safe. -/
  | notModelled (mnemonic : String)
  deriving DecidableEq, Repr

/-- The block right after reset (10_state.md R30, 70_reset_and_hazards.md R150): INITIALIZED 0, FAULT 0, the trace
empty. The latches are unspecified there; they hold 0 (DESIGN CHOICE, unsafe: notes/assumptions/7.md). The model's own
fields are empty (DESIGN CHOICE: notes/assumptions/1.md, 4.md, 5.md, 6.md, 8.md). -/
def State.reset : State where
  initialized := false
  fault := 0#3
  oldmode := 0#8
  presc := 0#8
  pulse := 0#20
  duty := 0#18
  trace := []
  pending := []
  reads := []
  delays := []
  acks := []
  waits := []
  acked := []
  readCount := 0
  draws := 0

end Sys2Proof.Machine
end

