-- ==== Sys2Proof/Machine/Flags.lean ====
section
/-! DEFINITION. The block's one flag, INITIALIZED (10_state.md R20, R22), and the codes of the FAULT register
(60_exceptions.md R132). There is no other flag or condition code. -/

namespace Sys2Proof.Machine

/-- INITIALIZED <- 1, the last action of InitSeq (40_init.md R83). -/
def markInitialized (s : State) : State := { s with initialized := true }

/-- The code FAULT takes for each cause (60_exceptions.md R132). -/
def FaultCause.code : FaultCause → BitVec 3
  | .illegalOpcode => 1#3
  | .reservedField => 2#3
  | .freqZero => 3#3
  | .prescaleRange => 4#3
  | .dutyRange => 5#3

/-- The cause a decode fault raises (30_encoding.md R66, R67). -/
def decodeCause : DecodeFault → FaultCause
  | .illegalOpcode => .illegalOpcode
  | .reservedField => .reservedField

/-- FAULT holds no fault (10_state.md R21). -/
def notFaulted (s : State) : Bool := s.fault == 0#3

end Sys2Proof.Machine
end

