-- ==== Sys2Proof/Machine/Operands.lean ====
section
/-! DEFINITION. The operand forms of the block: an operand's unsigned value (30_encoding.md R62), a channel's
validity (00_scope.md R9), its base register (20_memory.md R43), and the byte split of a 16-bit value
(42_channel_load.md R106). -/

namespace Sys2Proof.Machine

/-- The value of a 16-bit operand: the raw field, zero-extended (30_encoding.md R62). -/
def operandVal (x : Operand) : Nat := x.toNat

/-- The value of a channel operand: the raw field, zero-extended (30_encoding.md R62). -/
def channelVal (ch : Byte) : Nat := ch.toNat

/-- The channel is one of the block's (00_scope.md R9). -/
def validChannel (c : Config) (ch : Nat) : Bool := decide (ch < c.numChannels)

/-- ChanBase(n) = REG_LED0_ON_L + LED_STRIDE * n (20_memory.md R43). -/
def chanBase (c : Config) (n : Nat) : Byte := c.regLed0OnL + BitVec.ofNat 8 (c.ledStride * n)

/-- lo8(v) = v[7:0] (42_channel_load.md R106). -/
def lo8 (v : Nat) : Byte := BitVec.ofNat 8 v

/-- hi8(v) = v[15:8], for v up to 0xFFFF (42_channel_load.md R106). -/
def hi8 (v : Nat) : Byte := BitVec.ofNat 8 (v / 256)

/-- The block write of a channel's window: on then off, each low byte first (42_channel_load.md R105,
20_memory.md R45). -/
def windowEvent (c : Config) (ch on off : Nat) : BusEvent :=
  .wrBlk c.devAddr (chanBase c ch) (lo8 on) (hi8 on) (lo8 off) (hi8 off)

end Sys2Proof.Machine
end

