-- ==== Sys2Proof/Machine/Ops.lean ====
section
/-! DEFINITION. The shared operations: the bus primitives (20_memory.md R41), the transient latches (10_state.md
R24), taking a fault (60_exceptions.md R131), the faulted block (R133), taking a host input (10_state.md R25) and reset
(70_reset_and_hazards.md R150). There is no return from a fault (60_exceptions.md R136). -/

namespace Sys2Proof.Machine

/-! Inputs from outside -/

/-- The byte the next read returns: a draw, any byte (20_memory.md R47). -/
def nextRead (s : State) : Byte := s.reads.headD (Config.readOracle s.readCount)

/-- By how much the next wait outlasts its minimum (60_exceptions.md R140). -/
def nextExcess (s : State) : Nat := s.delays.headD (Config.delayExcess s.draws)

/-- What the transport reports for the next transaction (20_memory.md R49). -/
def nextAck (s : State) : Bool := s.acks.headD (Config.transportOutcome s.draws)

/-! Bus primitives -/

/-- One bus transaction: its event joins the trace whether or not it succeeds, and its outcome goes to the record
the block never reads (10_state.md R26, 20_memory.md R48, R49). -/
def transact (e : BusEvent) (s : State) : State :=
  { s with
    trace := s.trace ++ [e], acked := s.acked ++ [nextAck s], acks := s.acks.tail, draws := s.draws + 1 }

/-- BusWrite(dev, reg, v) (20_memory.md R41). -/
def busWrite (dev reg v : Byte) (s : State) : State := transact (.wr dev reg v) s

/-- BusRead(dev, reg, 8) into OLDMODE, the block's only read: the byte is a draw (20_memory.md R41, R47,
41_prescale.md R95 step 2). -/
def busReadOldmode (dev reg : Byte) (s : State) : State :=
  { transact (.rd dev reg (nextRead s)) s with
    oldmode := nextRead s, reads := s.reads.tail, readCount := s.readCount + 1 }

/-- Delay(us): the event says us, the real length is us or more (20_memory.md R41, 60_exceptions.md R140). -/
def delay (us : Nat) (s : State) : State :=
  { s with
    trace := s.trace ++ [.dly us], waits := s.waits ++ [us + nextExcess s], delays := s.delays.tail
    draws := s.draws + 1 }

/-! Transient latches -/

/-- PRESC <- p (41_prescale.md R95). -/
def latchPresc (p : BitVec 8) (s : State) : State := { s with presc := p }

/-- PULSE <- p (43_servo.md R117). -/
def latchPulse (p : BitVec 20) (s : State) : State := { s with pulse := p }

/-- DUTY <- d (43_servo.md R117, R118). -/
def latchDuty (d : BitVec 18) (s : State) : State := { s with duty := d }

/-- After the last step of SetFreqSeq no rule reads OLDMODE and PRESC: they hold free values (10_state.md R24).
DESIGN CHOICE, safe: notes/assumptions/7.md. -/
def releaseFreqLatches (s : State) : State :=
  { s with
    oldmode := Config.freeOldmode s.draws, presc := Config.freePresc s.draws, draws := s.draws + 1 }

/-- After the channel load of a servo command no rule reads DUTY: it holds a free value (10_state.md R24).
DESIGN CHOICE, safe: notes/assumptions/7.md. -/
def releaseDuty (s : State) : State :=
  { s with duty := Config.freeDuty s.draws, draws := s.draws + 1 }

/-- After the channel load of SERVO no rule reads PULSE: it holds a free value (10_state.md R24).
DESIGN CHOICE, safe: notes/assumptions/7.md. -/
def releasePulse (s : State) : State :=
  { s with pulse := Config.freePulse s.draws, draws := s.draws + 1 }

/-! Taking a fault -/

/-- How a part of a command ends: the command goes on, or it has ended at once by a fault (60_exceptions.md R131). -/
inductive Flow where
  | go (s : State)
  | ended (s : State)
  deriving DecidableEq, Repr

/-- The state a part of a command leaves. -/
def Flow.state : Flow → State
  | .go s => s
  | .ended s => s

/-- The next part of a command, which an ended command does not reach (60_exceptions.md R131). -/
def Flow.andThen (m : Flow) (k : State → Flow) : Flow :=
  match m with
  | .go s => k s
  | .ended s => .ended s

/-- An action at the end of a command, whether or not it was ended by a fault. -/
def Flow.finally (m : Flow) (f : State → State) : Flow :=
  match m with
  | .go s => .go (f s)
  | .ended s => .ended (f s)

/-- FAULT <- c; nothing else changes: the trace and INITIALIZED stay (60_exceptions.md R131). -/
def enterFault (c : FaultCause) (s : State) : State := { s with fault := c.code }

/-- raise Fault(c): the command ends at once (60_exceptions.md R131). -/
def raise (c : FaultCause) (s : State) : Flow := .ended (enterFault c s)

/-- A block with FAULT not 0 takes no step (60_exceptions.md R133); any other does what k says.
DEDUCED, safe: notes/assumptions/9.md. -/
def unlessFaulted (s : State) (k : State → Host.Outcome State Fault Refusal) :
    Host.Outcome State Fault Refusal :=
  if notFaulted s then k s else .fault (.blockFaulted s.fault)

/-- Runs the body of a command to completion, or to its fault, as one step (10_state.md R25, R27). -/
def runCommand (body : State → Flow) (s : State) : Host.Outcome State Fault Refusal :=
  unlessFaulted s fun s => .next (body s).state

/-- A word that decodes to no command raises its fault and has no other effect (30_encoding.md R65). -/
def rejectWord (d : DecodeFault) (s : State) : Host.Outcome State Fault Refusal :=
  runCommand (raise (decodeCause d)) s

/-! What reaches the block from outside -/

/-- The next host input. -/
def nextInput (s : State) : Option HostInput := s.pending.head?

/-- The state once the next host input is taken. -/
def dropInput (s : State) : State := { s with pending := s.pending.tail }

/-- With nothing to run the block waits and nothing changes; a faulted block takes no step all the same.
DESIGN CHOICE, safe: notes/assumptions/2.md. -/
def idle (s : State) : Host.Outcome State Fault Refusal := unlessFaulted s .next

/-- Reset: a fresh block with an empty trace (70_reset_and_hazards.md R150), its latches unspecified, thus free values
(10_state.md R30). What is outside the block stays: notes/assumptions/10.md. -/
def resetBlock (s : State) : State :=
  { s with
    initialized := false, fault := 0#3, trace := [], waits := [], acked := []
    oldmode := Config.freeOldmode s.draws, presc := Config.freePresc s.draws
    pulse := Config.freePulse s.draws, duty := Config.freeDuty s.draws, draws := s.draws + 1 }

/-- Puts a command word first among the host's inputs, so that the next step takes it. -/
def issue (w : CmdWord) (s : State) : State := { s with pending := .command w :: s.pending }

end Sys2Proof.Machine
end

