-- ==== Sys2Proof/Machine/Channel.lean ====
section
/-! DEFINITION. The channel load and the command SET_PWM (42_channel_load.md). -/

namespace Sys2Proof.Machine

/-- ChannelLoad(ch, on, off) (42_channel_load.md R105): an invalid channel is dropped in silence (R107), before the
range check (R108); then one block write of the window, unmasked and unclamped (R106, R111). -/
def channelLoad (c : Config) (ch on off : Nat) (s : State) : Flow :=
  if validChannel c ch then
    if on > 0xFFFF ∨ off > 0xFFFF then raise .dutyRange s
    else .go (transact (windowEvent c ch on off) s)
  else .go s

/-- SET_PWM(ch, on, off) (42_channel_load.md R109). INITIALIZED is neither read nor written (R110). -/
def execSetPwm (ch : Byte) (on off : Operand) (s : State) : Host.Outcome State Fault Refusal :=
  runCommand (channelLoad Config.hw (channelVal ch) (operandVal on) (operandVal off)) s

end Sys2Proof.Machine
end

