-- ==== Sys2Proof/Machine/Convert.lean ====
section
/-! DEFINITION. The block's two calculators (00_scope.md R1): the prescale calculator (41_prescale.md R90, R93)
and the angle-to-window converter (43_servo.md R115, R116). Every division truncates (90_conflicts.md C1, C2). -/

namespace Sys2Proof.Machine

/-- Prescale(f), truncated after each step: t1 = OSC_HZ // TICKS, t2 = t1 // f, t2 - 1 (41_prescale.md R90).
It is -1 for a frequency above t1. The caller guards against f = 0 (R92). -/
def prescale (c : Config) (f : Nat) : Int := ((c.oscHz / c.ticks / f : Nat) : Int) - 1

/-- The prescale fits in a byte (41_prescale.md R93). -/
def prescaleFits (p : Int) : Bool := decide (0 ≤ p ∧ p ≤ 255)

/-- AngleToPulse(d) = (d * ANGLE_SPAN_US) // ANGLE_SPAN_DEG + PULSE_OFFSET_US (43_servo.md R115). -/
def angleToPulse (c : Config) (d : Nat) : Nat := d * c.angleSpanUs / c.angleSpanDeg + c.pulseOffsetUs

/-- PulseToTick(p) = (p * TICKS) // PERIOD_US (43_servo.md R116). -/
def pulseToTick (c : Config) (p : Nat) : Nat := p * c.ticks / c.periodUs

end Sys2Proof.Machine
end

