-- ==== Sys2Proof/Machine/Frequency.lean ====
section
/-! DEFINITION. The frequency sequence and the command SET_FREQ (41_prescale.md). -/

namespace Sys2Proof.Machine

/-- SetFreqSeq steps 2 to 7, with PRESC latched (41_prescale.md R95): read MODE1, sleep write (R97), PRESCALE
write, restore write, settle wait (R99), wake write (R98). -/
def freqBusSeq (c : Config) (s : State) : State :=
  let s := busReadOldmode c.devAddr c.regMode1 s
  let s := busWrite c.devAddr c.regMode1 (s.oldmode ||| c.mode1Sleep) s
  let s := busWrite c.devAddr c.regPrescale s.presc s
  let s := busWrite c.devAddr c.regMode1 s.oldmode s
  let s := delay c.oscSettleUs s
  let s := busWrite c.devAddr c.regMode1 (s.oldmode ||| c.mode1WakeSet) s
  releaseFreqLatches s

/-- SetFreqSeq(f) (41_prescale.md R95): the checks of R92 and R93 in this order, before any event, then the bus
sequence. -/
def setFreqSeq (c : Config) (f : Nat) (s : State) : Flow :=
  if f = 0 then raise .freqZero s
  else if prescaleFits (prescale c f) then
    .go (freqBusSeq c (latchPresc (BitVec.ofInt 8 (prescale c f)) s))
  else raise .prescaleRange s

/-- SET_FREQ(f) (41_prescale.md R96). INITIALIZED is neither read nor written (R100). -/
def execSetFreq (freq : Operand) (s : State) : Host.Outcome State Fault Refusal :=
  runCommand (setFreqSeq Config.hw (operandVal freq)) s

end Sys2Proof.Machine
end

