-- ==== Sys2Proof/Machine/Init.lean ====
section
/-! DEFINITION. The initialisation sequence, lazy initialisation and the command INIT (40_init.md). -/

namespace Sys2Proof.Machine

/-- InitSeq step 4 for the channels of the list, in its order (40_init.md R81). -/
def loadChannels (c : Config) (chs : List Nat) (s : State) : Flow :=
  match chs with
  | [] => .go s
  | ch :: rest => (channelLoad c ch c.initChnOn c.initChnOff s).andThen (loadChannels c rest)

/-- InitSeq (40_init.md R81): MODE1 write, SetFreqSeq at the default frequency, channel 0, channels 1 to 15 in
ascending order, then INITIALIZED <- 1. -/
def initSeq (c : Config) (s : State) : Flow :=
  (setFreqSeq c c.defaultFreqHz (busWrite c.devAddr c.regMode1 c.mode1Init s)).andThen fun s =>
  (channelLoad c 0 c.initCh0On c.initCh0Off s).andThen fun s =>
  (loadChannels c (List.range' 1 (c.numChannels - 1)) s).andThen fun s =>
  .go (markInitialized s)

/-- EnsureInit (40_init.md R82). -/
def ensureInit (c : Config) (s : State) : Flow := if s.initialized then .go s else initSeq c s

/-- INIT (40_init.md R80). -/
def execInit (s : State) : Host.Outcome State Fault Refusal := runCommand (ensureInit Config.hw) s

end Sys2Proof.Machine
end

