-- ==== Sys2Proof/Machine/Servo.lean ====
section
/-! DEFINITION. The commands SERVO and SERVO_PULSE (43_servo.md). -/

namespace Sys2Proof.Machine

/-- The last part of both servo commands: DUTY <- PulseToTick(pulse), then ChannelLoad(ch, 0, DUTY), on always 0
(43_servo.md R117, R118, R123), the channel check before the range check (R119). -/
def loadPulse (c : Config) (ch pulse : Nat) (s : State) : Flow :=
  let s := latchDuty (BitVec.ofNat 18 (pulseToTick c pulse)) s
  (channelLoad c ch 0 s.duty.toNat s).finally releaseDuty

/-- SERVO after EnsureInit: PULSE <- AngleToPulse(d), then the tick conversion and load of PULSE (43_servo.md R117). -/
def loadAngle (c : Config) (ch angle : Nat) (s : State) : Flow :=
  let s := latchPulse (BitVec.ofNat 20 (angleToPulse c angle)) s
  (loadPulse c ch s.pulse.toNat s).finally releasePulse

/-- SERVO(ch, d) (43_servo.md R117): EnsureInit first, whatever the channel and the angle are (R119). -/
def servoFlow (c : Config) (ch angle : Nat) (s : State) : Flow := (ensureInit c s).andThen (loadAngle c ch angle)

/-- SERVO_PULSE(ch, p) (43_servo.md R118): EnsureInit first, whatever the channel is (R119). It does not write PULSE, which
keeps what it held. DESIGN CHOICE, unsafe: notes/assumptions/7.md. -/
def servoPulseFlow (c : Config) (ch pulse : Nat) (s : State) : Flow := (ensureInit c s).andThen (loadPulse c ch pulse)

/-- SERVO (43_servo.md R117). -/
def execServo (ch : Byte) (angle : Operand) (s : State) : Host.Outcome State Fault Refusal :=
  runCommand (servoFlow Config.hw (channelVal ch) (operandVal angle)) s

/-- SERVO_PULSE (43_servo.md R118). -/
def execServoPulse (ch : Byte) (pulse : Operand) (s : State) : Host.Outcome State Fault Refusal :=
  runCommand (servoPulseFlow Config.hw (channelVal ch) (operandVal pulse)) s

end Sys2Proof.Machine
end

