-- ==== Sys2Proof/Machine/Dispatch.lean ====
section
/-! DEFINITION. The dispatch of the five commands to their meanings (30_encoding.md R63). -/

namespace Sys2Proof.Machine

def exec (i : Instr) (s : State) : Host.Outcome State Fault Refusal :=
  match i with
  | .init => Sys2Proof.Machine.execInit s
  | .setFreq freq => Sys2Proof.Machine.execSetFreq freq s
  | .setPwm ch on off => Sys2Proof.Machine.execSetPwm ch on off s
  | .servo ch angle => Sys2Proof.Machine.execServo ch angle s
  | .servoPulse ch pulse => Sys2Proof.Machine.execServoPulse ch pulse s

end Sys2Proof.Machine
end

