-- ==== Sys2Proof/Machine/Step.lean ====
section
/-! DEFINITION. One step of the block (10_state.md R27): it takes the next host input and runs it whole. -/

namespace Sys2Proof.Machine

/-- A command word: decode it, before any effect, then run the command (30_encoding.md R65). -/
def execWord (w : CmdWord) (s : State) : Host.Outcome State Fault Refusal :=
  match decode w with
  | .ok i => exec i s
  | .error d => rejectWord d s

/-- One step: a whole command (10_state.md R25, R27), a reset (70_reset_and_hazards.md R150), or waiting for the host.
A faulted block steps by a reset only (60_exceptions.md R133, R136). -/
def step (s : State) : Host.Outcome State Fault Refusal :=
  match nextInput s with
  | none => idle s
  | some .reset => .next (resetBlock (dropInput s))
  | some (.command w) => execWord w (dropInput s)

/-- The state with a word of the opcode table (nbits low bits of w, every bit above them 0) as the next host input, so
that the next step runs it: notes/assumptions/1.md. -/
def State.withFetchWord (s : State) (nbits w : Nat) : State := issue (BitVec.ofNat 48 (w % 2 ^ nbits)) s

end Sys2Proof.Machine
end

