-- ==== Sys2Proof/Machine/Assembler.lean ====
section
/-! DEFINITION. The assembler text of commands (30_encoding.md R69): a mnemonic, then operands in decimal or
0x-hexadecimal with commas between them. It is a notation beside the machine; no step uses it. -/

namespace Sys2Proof.Machine

/-- The value as a field of n bits; refused when it does not fit (30_encoding.md R69). -/
def fitField (n v : Nat) : Option (BitVec n) := if v < 2 ^ n then some (BitVec.ofNat n v) else none

/-- The command of a mnemonic and its operands, in the order R69 gives them; refused when there are too few or too
many operands or one does not fit: CH up to 255, A and B up to 65535 (30_encoding.md R69). -/
def assemble (m : Mnemonic) (ops : List Nat) : Option Instr :=
  match m, ops with
  | .init, [] => some .init
  | .setFreq, [freq] => (fitField 16 freq).map .setFreq
  | .setPwm, [ch, on, off] =>
    (fitField 8 ch).bind fun ch => (fitField 16 on).bind fun on => (fitField 16 off).map (.setPwm ch on)
  | .servo, [ch, angle] => (fitField 8 ch).bind fun ch => (fitField 16 angle).map (.servo ch)
  | .servoPulse, [ch, pulse] => (fitField 8 ch).bind fun ch => (fitField 16 pulse).map (.servoPulse ch)
  | _, _ => none

/-- The mnemonic spelled by the characters (30_encoding.md R69). -/
def readMnemonic (cs : List Char) : Option Mnemonic :=
  if cs = "INIT".toList then some .init
  else if cs = "SET_FREQ".toList then some .setFreq
  else if cs = "SET_PWM".toList then some .setPwm
  else if cs = "SERVO".toList then some .servo
  else if cs = "SERVO_PULSE".toList then some .servoPulse
  else none

/-- The value of a digit: 0 to 9, and in base 16 also a to f in either case.
DESIGN CHOICE, safe: notes/assumptions/13.md. -/
def digitValue (base : Nat) (ch : Char) : Option Nat :=
  if '0' ≤ ch ∧ ch ≤ '9' then some (ch.toNat - '0'.toNat)
  else if base = 16 ∧ 'a' ≤ ch ∧ ch ≤ 'f' then some (ch.toNat - 'a'.toNat + 10)
  else if base = 16 ∧ 'A' ≤ ch ∧ ch ≤ 'F' then some (ch.toNat - 'A'.toNat + 10)
  else none

/-- The number the digits spell, after the value read so far. -/
def readDigits (base : Nat) : List Char → Nat → Option Nat
  | [], acc => some acc
  | ch :: cs, acc => (digitValue base ch).bind fun d => readDigits base cs (acc * base + d)

/-- An operand: decimal, or 0x and hexadecimal digits (30_encoding.md R69). -/
def readNumber : List Char → Option Nat
  | '0' :: 'x' :: d :: ds => readDigits 16 (d :: ds) 0
  | d :: ds => readDigits 10 (d :: ds) 0
  | [] => none

/-- The characters without the spaces around them. DESIGN CHOICE, safe: notes/assumptions/13.md. -/
def trimSpaces (cs : List Char) : List Char :=
  ((cs.dropWhile (· == ' ')).reverse.dropWhile (· == ' ')).reverse

/-- The parts of the characters between commas. -/
def splitCommas : List Char → List (List Char)
  | [] => [[]]
  | ch :: cs =>
    match ch == ',', splitCommas cs with
    | true, parts => [] :: parts
    | false, [] => [[ch]]
    | false, part :: parts => (ch :: part) :: parts

/-- The operands, all of them numbers. -/
def readOperands : List (List Char) → Option (List Nat)
  | [] => some []
  | cs :: rest => (readNumber (trimSpaces cs)).bind fun v => (readOperands rest).map (v :: ·)

/-- One line of assembler text (30_encoding.md R69). -/
def assembleLine (line : List Char) : Option Instr :=
  let body := trimSpaces line
  let name := body.takeWhile (· != ' ')
  let rest := trimSpaces (body.drop name.length)
  (readMnemonic name).bind fun m =>
    (readOperands (if rest = [] then [] else splitCommas rest)).bind (assemble m)

/-- The command word of one line of assembler text (30_encoding.md R69, R71). -/
def assembleWord (line : List Char) : Option CmdWord := (assembleLine line).map encode

end Sys2Proof.Machine
end

