-- ==== Sys2Proof/Machine/Run.lean ====
section
/-! DEFINITION. A run of the block as the sequence of its steps (10_state.md R27), how each command of it ended, and when
a run has ended successfully (70_reset_and_hazards.md R162). A run is beside the machine; no step reads it. -/

namespace Sys2Proof.Machine

/-- How a command ended: Done, or Faulted with the cause FAULT then holds (10_state.md R27). -/
inductive CommandResult where
  | done
  | faulted (code : BitVec 3)
  deriving DecidableEq, Repr

/-- A run so far: the state it has reached, and how the last command it ran has ended, none before the first. -/
structure Run where
  state : State
  last : Option CommandResult
  deriving DecidableEq, Repr

/-- A run that starts in a state, no command of it run yet. -/
def Run.start (s : State) : Run := ⟨s, none⟩

/-- How the command of the step from s to t ended (10_state.md R27); none if that step ran no command word. -/
def commandResult (s t : State) : Option CommandResult :=
  match nextInput s with
  | some (.command _) => some (if notFaulted t then .done else .faulted t.fault)
  | some .reset => none
  | none => none

/-- The run one step on; none where the block takes no step (60_exceptions.md R133). A step that runs no command leaves
the result of the last command as it was. DESIGN CHOICE, unsafe: notes/assumptions/16.md. -/
def Run.next (r : Run) : Option Run :=
  match step r.state with
  | .next t => some ⟨t, (commandResult r.state t).or r.last⟩
  | .fault _ => none
  | .refused _ => none

/-- The run a number of steps on (10_state.md R27). -/
def Run.steps : Nat → Run → Option Run
  | 0, r => some r
  | n + 1, r => r.next.bind (Run.steps n)

/-- The input is a command word, not a reset. -/
def HostInput.isCommand : HostInput → Bool
  | .command _ => true
  | .reset => false

/-- The host has issued its last command: no command word is left among its inputs (70_reset_and_hazards.md R162). -/
def State.lastIssued (s : State) : Bool := !s.pending.any HostInput.isCommand

/-- A run has ended successfully: the host has issued its last command, that command has completed with Done, and FAULT
is 0 (70_reset_and_hazards.md R162). A run that has run no command has not. DEDUCED, unsafe: notes/assumptions/15.md. -/
def Run.endedWell (r : Run) : Bool := r.state.lastIssued && r.last == some .done && notFaulted r.state

/-- The observation of a run: the trace, and the final INITIALIZED and FAULT (10_state.md R27,
70_reset_and_hazards.md R162). The trace counts from the last reset (70_reset_and_hazards.md R150), wherever the run
began: it holds what was emitted before a run that starts on a trace that is not empty, and nothing from before a reset
the run has gone over. DESIGN CHOICE, unsafe: notes/assumptions/17.md. -/
def State.observation (s : State) : List BusEvent × Bool × BitVec 3 := (s.trace, s.initialized, s.fault)

/-- A run is stuck: FAULT is not 0 and no reset is the next input (60_exceptions.md R133, 70_reset_and_hazards.md
R162). -/
def State.stuck (s : State) : Bool := !notFaulted s && nextInput s != some .reset

end Sys2Proof.Machine
end

