-- ==== Sys2Proof/Machine/Trace.lean ====
section
/-! DEFINITION. What a bus trace says (10_state.md R26): the register bytes its events send (20_memory.md R41), the
byte last sent to a register, and the transactions and waits in it. -/

namespace Sys2Proof.Machine

/-- The register writes of an event, an address being the pair (dev, reg) (20_memory.md R40): one byte for a
one-register write, di to register reg + i for a block write (R41), none for a read or a wait. -/
def BusEvent.stores : BusEvent → List ((Byte × Byte) × Byte)
  | .wr dev reg v => [((dev, reg), v)]
  | .wrBlk dev reg d0 d1 d2 d3 =>
    [((dev, reg), d0), ((dev, reg + 1#8), d1), ((dev, reg + 2#8), d2), ((dev, reg + 3#8), d3)]
  | .rd _ _ _ => []
  | .dly _ => []

/-- The byte the trace last sent to register reg of device dev, none if it sent none. What the device holds is no
concern of the block (10_state.md R29). -/
def lastWritten (tr : List BusEvent) (dev reg : Byte) : Option Byte :=
  (tr.flatMap BusEvent.stores).reverse.lookup (dev, reg)

/-- The event is a bus transaction, not a wait (10_state.md R26). -/
def BusEvent.isTransaction : BusEvent → Bool
  | .wr _ _ _ => true
  | .wrBlk _ _ _ _ _ _ => true
  | .rd _ _ _ => true
  | .dly _ => false

/-- How many bus transactions the trace holds. -/
def transactionCount (tr : List BusEvent) : Nat := tr.countP BusEvent.isTransaction

/-- How many waits the trace holds. -/
def waitCount (tr : List BusEvent) : Nat := tr.countP fun e => !e.isTransaction

end Sys2Proof.Machine
end

