-- ==== Sys2Proof/Safety.lean ====
section
/-! DEFINITION. What the claims about the block are stated in: the traces the spec writes out (40_init.md R84,
41_prescale.md R95), the events the block may emit (20_memory.md R42, R43), the invariants of a power-up session
(70_reset_and_hazards.md R151, R152), and what only the transport and the clock decide. Every number here is the spec's. -/

namespace Sys2Proof.Machine

/-- The six events of SetFreqSeq for prescale byte p when the MODE1 read returns m (41_prescale.md R95). -/
def freqTrace (p m : Byte) : List BusEvent :=
  [.rd 0x40#8 0x00#8 m, .wr 0x40#8 0x00#8 (m ||| 0x10#8), .wr 0x40#8 0xFE#8 p, .wr 0x40#8 0x00#8 m,
   .dly 5000, .wr 0x40#8 0x00#8 (m ||| 0xA1#8)]

/-- The block write that sets one channel's window to (0, 0), by its base register (40_init.md R84, events 9 to 23). -/
def clearEvent (base : Byte) : BusEvent := .wrBlk 0x40#8 base 0x00#8 0x00#8 0x00#8 0x00#8

/-- The 23 events of InitSeq when the MODE1 read returns m (40_init.md R84). -/
def initTrace (m : Byte) : List BusEvent :=
  [.wr 0x40#8 0x00#8 0x00#8, .rd 0x40#8 0x00#8 m, .wr 0x40#8 0x00#8 (m ||| 0x10#8), .wr 0x40#8 0xFE#8 0x79#8,
   .wr 0x40#8 0x00#8 m, .dly 5000, .wr 0x40#8 0x00#8 (m ||| 0xA1#8),
   .wrBlk 0x40#8 0x06#8 0x00#8 0x00#8 0xFF#8 0x0F#8,
   clearEvent 0x0A#8, clearEvent 0x0E#8, clearEvent 0x12#8, clearEvent 0x16#8, clearEvent 0x1A#8,
   clearEvent 0x1E#8, clearEvent 0x22#8, clearEvent 0x26#8, clearEvent 0x2A#8, clearEvent 0x2E#8,
   clearEvent 0x32#8, clearEvent 0x36#8, clearEvent 0x3A#8, clearEvent 0x3E#8, clearEvent 0x42#8]

/-- The events of EnsureInit (40_init.md R82, R84): none on an initialised block. -/
def lazyInitTrace (s : State) : List BusEvent := if s.initialized then [] else initTrace (nextRead s)

/-- The events of a servo channel load with duty tick v (43_servo.md R117, R118, R123; 42_channel_load.md R105, R107): one
block write with on = 0 and v little-endian, none on an invalid channel. -/
def servoLoadTrace (ch : Byte) (v : Nat) : List BusEvent :=
  if ch.toNat ≤ 15 then
    [.wrBlk 0x40#8 (BitVec.ofNat 8 (0x06 + 4 * ch.toNat)) 0x00#8 0x00#8 (BitVec.ofNat 8 (v % 256))
      (BitVec.ofNat 8 (v / 256))]
  else []

/-- The code FAULT takes for a command word with the field values op, ch, a, b (60_exceptions.md R132), in the order of
R134: 0 for none. -/
def faultCode (op ch a b : Nat) : BitVec 3 :=
  if op = 0 ∨ 6 ≤ op then 1#3
  else if (op = 1 ∧ (ch ≠ 0 ∨ a ≠ 0 ∨ b ≠ 0)) ∨ (op = 2 ∧ (ch ≠ 0 ∨ a ≠ 0)) ∨ (4 ≤ op ∧ a ≠ 0) then 2#3
  else if op = 2 ∧ b = 0 then 3#3
  else if op = 2 ∧ (b ≤ 23 ∨ 6104 ≤ b) then 4#3
  else if op = 4 ∧ ch ≤ 15 ∧ 31940 ≤ b then 5#3
  else 0#3

/-- The code FAULT takes for a command word, with OP = w[47:40], CH = w[39:32], A = w[31:16], B = w[15:0]. -/
def expectedFault (w : CmdWord) : BitVec 3 :=
  faultCode (w.extractLsb' 40 8).toNat (w.extractLsb' 32 8).toNat (w.extractLsb' 16 16).toNat
    (w.extractLsb' 0 16).toNat

/-- The events the block may emit: dev 0x40 only (20_memory.md R40); one-byte writes to 0x00 and 0xFE, block writes
at the base registers 0x06, 0x0A, ..., 0x42, reads of 0x00 (R42, R43); waits of 5000 microseconds
(41_prescale.md R99). -/
def BusEvent.allowed : BusEvent → Bool
  | .wr dev reg _ => dev == 0x40#8 && (reg == 0x00#8 || reg == 0xFE#8)
  | .wrBlk dev reg _ _ _ _ =>
    dev == 0x40#8 && decide (6 ≤ reg.toNat ∧ reg.toNat ≤ 66 ∧ (reg.toNat - 6) % 4 = 0)
  | .rd dev reg _ => dev == 0x40#8 && reg == 0x00#8
  | .dly us => us == 5000

/-- The event is InitSeq's first, and next is the read that follows it there (40_init.md R84, events 1 and 2). -/
def startsInit (e : BusEvent) (next : Option BusEvent) : Bool :=
  match e, next with
  | .wr dev reg v, some (.rd _ _ _) => dev == 0x40#8 && reg == 0x00#8 && v == 0x00#8
  | _, _ => false

/-- How often InitSeq has been begun in the trace. -/
def initStarts : List BusEvent → Nat
  | [] => 0
  | e :: rest => (if startsInit e rest.head? then 1 else 0) + initStarts rest

/-- The trace holds a complete InitSeq trace, its events one after the other (70_reset_and_hazards.md R152). -/
def HasInitSeq (tr : List BusEvent) : Prop := ∃ pre m post, tr = pre ++ initTrace m ++ post

/-- The invariant of a power-up session: FAULT is 0 or one of the five causes (60_exceptions.md R132); every event
is one the block may emit (20_memory.md R42); InitSeq has been begun once if INITIALIZED is 1, else never
(70_reset_and_hazards.md R151), and then the trace holds a complete one (R152); and the trace does not end with
InitSeq's first event, as no command does. -/
structure SessionInv (s : State) : Prop where
  fault_legal : s.fault.toNat ≤ 5
  events_allowed : ∀ e ∈ s.trace, e.allowed = true
  init_starts : initStarts s.trace = if s.initialized then 1 else 0
  init_complete : s.initialized = true → HasInitSeq s.trace
  trace_settled : s.trace.getLast? ≠ some (.wr 0x40#8 0x00#8 0x00#8)

/-- The invariant of the transport's record: one report for each transaction of the trace (20_memory.md R49), one
length for each wait, and no wait shorter than 5000 microseconds (60_exceptions.md R140). -/
structure RecordInv (s : State) : Prop where
  reports : s.acked.length = transactionCount s.trace
  lengths : s.waits.length = waitCount s.trace
  settled : ∀ us ∈ s.waits, 5000 ≤ us

/-- The state without what the transport and the clock alone decide: the outcomes of the transactions
(20_memory.md R49) and the lengths of the waits (60_exceptions.md R140). -/
def State.forgetTransport (s : State) : State := { s with acks := [], acked := [], delays := [], waits := [] }

end Sys2Proof.Machine
end

