-- ==== Sys2Proof/Certificates/Slice0/Obligations.lean ====
section
/-! DEFINITION. The statements about the block, each from a rule of the spec. `step s = .next t` and `exec i s = .next t`
say that the block completes a step; the events a command adds stand in its trace. The block has no memory of its own
(20_memory.md R40, 10_state.md R29): what takes the place of a memory frame is `lastWritten`, the byte the trace last
sent to a register. -/

open Sys2Proof Sys2Proof.Machine

/-! ## Encoding (30_encoding.md) -/

/-- Decode and encode agree on every command, with every operand at every value (R61, R62, R63). -/
def Obligations.DecodeOfEncodeIsTheCommand : Prop :=
  ∀ i : Instr, decode (encode i) = .ok i

/-- Two words never mean one command (R67, 92_eei_decisions.md D5): a word that decodes is the encoding of what it
decodes to. -/
def Obligations.EncodeOfDecodeIsTheWord : Prop :=
  ∀ (w : CmdWord) (i : Instr), decode w = .ok i → encode i = w

/-- R64: the word w selects a command when `(w & mask) == match`, row by row, and no two rows match one word. -/
def Obligations.MatchAndMaskSelectTheCommand : Prop :=
  ∀ w : CmdWord,
    (w &&& 0xFFFFFFFFFFFF#48 = 0x010000000000#48 ↔ decode w = .ok .init) ∧
    (w &&& 0xFFFFFFFF0000#48 = 0x020000000000#48 ↔ ∃ f, decode w = .ok (.setFreq f)) ∧
    (w &&& 0xFF0000000000#48 = 0x030000000000#48 ↔ ∃ ch on off, decode w = .ok (.setPwm ch on off)) ∧
    (w &&& 0xFF00FFFF0000#48 = 0x040000000000#48 ↔ ∃ ch d, decode w = .ok (.servo ch d)) ∧
    (w &&& 0xFF00FFFF0000#48 = 0x050000000000#48 ↔ ∃ ch p, decode w = .ok (.servoPulse ch p)) ∧
    ∀ r ∈ opTable, ∀ r' ∈ opTable, r.selects w = true → r'.selects w = true → r = r'

/-- R61, R62, R63: a word laid out as OP, CH, A, B with the must-be-0 fields 0 decodes to its command, every operand
the raw field. -/
def Obligations.DecodeReadsTheRawFields : Prop :=
  ∀ (ch : Byte) (a b : Operand),
    decode (0x01#8 ++ 0#8 ++ 0#16 ++ 0#16) = .ok .init ∧
    decode (0x02#8 ++ 0#8 ++ 0#16 ++ b) = .ok (.setFreq b) ∧
    decode (0x03#8 ++ ch ++ a ++ b) = .ok (.setPwm ch a b) ∧
    decode (0x04#8 ++ ch ++ 0#16 ++ b) = .ok (.servo ch b) ∧
    decode (0x05#8 ++ ch ++ 0#16 ++ b) = .ok (.servoPulse ch b)

/-- R66: a word with OP = 0x00 or OP = 0x06 to 0xFF raises ILLEGAL_OPCODE, cause 1, and does nothing else. -/
def Obligations.IllegalOpcodeRaisesItsFault : Prop :=
  ∀ (s : State) (w : CmdWord) (rest : List HostInput),
    s.fault = 0#3 → s.pending = .command w :: rest →
    ((w.extractLsb' 40 8).toNat = 0 ∨ 6 ≤ (w.extractLsb' 40 8).toNat) →
    step s = .next { s with pending := rest, fault := 1#3 }

/-- R67: a legal opcode with a nonzero reserved field, whatever its value, raises RESERVED_FIELD, cause 2, and does
nothing else. -/
def Obligations.ReservedFieldRaisesItsFault : Prop :=
  ∀ (s : State) (w : CmdWord) (rest : List HostInput),
    s.fault = 0#3 → s.pending = .command w :: rest →
    (w.extractLsb' 40 8 = 0x01#8 ∧
        (w.extractLsb' 32 8 ≠ 0#8 ∨ w.extractLsb' 16 16 ≠ 0#16 ∨ w.extractLsb' 0 16 ≠ 0#16) ∨
      w.extractLsb' 40 8 = 0x02#8 ∧ (w.extractLsb' 32 8 ≠ 0#8 ∨ w.extractLsb' 16 16 ≠ 0#16) ∨
      (w.extractLsb' 40 8 = 0x04#8 ∨ w.extractLsb' 40 8 = 0x05#8) ∧ w.extractLsb' 16 16 ≠ 0#16) →
    step s = .next { s with pending := rest, fault := 2#3 }

/-- R71: the texts of its table assemble to its words, its words decode to the commands it gives them, and its last two
words select no command for the reason it gives. -/
def Obligations.ExampleTextsAndWords : Prop :=
  assembleWord "INIT".toList = some 0x010000000000#48 ∧
  assembleWord "SET_FREQ 50".toList = some 0x020000000032#48 ∧
  assembleWord "SET_FREQ 60".toList = some 0x02000000003C#48 ∧
  assembleWord "SET_PWM 0, 0, 4095".toList = some 0x030000000FFF#48 ∧
  assembleWord "SET_PWM 15, 256, 2048".toList = some 0x030F01000800#48 ∧
  assembleWord "SERVO 0, 90".toList = some 0x04000000005A#48 ∧
  assembleWord "SERVO 20, 90".toList = some 0x04140000005A#48 ∧
  assembleWord "SERVO_PULSE 3, 1500".toList = some 0x0503000005DC#48 ∧
  decode 0x010000000000#48 = .ok .init ∧
  decode 0x020000000032#48 = .ok (.setFreq 50#16) ∧
  decode 0x02000000003C#48 = .ok (.setFreq 60#16) ∧
  decode 0x030000000FFF#48 = .ok (.setPwm 0#8 0#16 4095#16) ∧
  decode 0x030F01000800#48 = .ok (.setPwm 15#8 256#16 2048#16) ∧
  decode 0x04000000005A#48 = .ok (.servo 0#8 90#16) ∧
  decode 0x04140000005A#48 = .ok (.servo 20#8 90#16) ∧
  decode 0x0503000005DC#48 = .ok (.servoPulse 3#8 1500#16) ∧
  decode 0x000000000000#48 = .error .illegalOpcode ∧
  decode 0x010000000001#48 = .error .reservedField

/-- The assembler takes the operands of each mnemonic in the order of R69 and refuses one that does not fit its field
(CH up to 255, A and B up to 65535), as it refuses too few or too many. -/
def Obligations.AssemblerTakesOperandsThatFit : Prop :=
  ∀ (ops : List Nat) (i : Instr),
    (assemble .init ops = some i ↔ ops = [] ∧ i = .init) ∧
    (assemble .setFreq ops = some i ↔
      ∃ f : Nat, f ≤ 65535 ∧ ops = [f] ∧ i = .setFreq (BitVec.ofNat 16 f)) ∧
    (assemble .setPwm ops = some i ↔
      ∃ ch on off : Nat, ch ≤ 255 ∧ on ≤ 65535 ∧ off ≤ 65535 ∧ ops = [ch, on, off] ∧
        i = .setPwm (BitVec.ofNat 8 ch) (BitVec.ofNat 16 on) (BitVec.ofNat 16 off)) ∧
    (assemble .servo ops = some i ↔
      ∃ ch d : Nat, ch ≤ 255 ∧ d ≤ 65535 ∧ ops = [ch, d] ∧ i = .servo (BitVec.ofNat 8 ch) (BitVec.ofNat 16 d)) ∧
    (assemble .servoPulse ops = some i ↔
      ∃ ch p : Nat, ch ≤ 255 ∧ p ≤ 65535 ∧ ops = [ch, p] ∧ i = .servoPulse (BitVec.ofNat 8 ch) (BitVec.ofNat 16 p))

/-! ## The step (10_state.md, 60_exceptions.md, 70_reset_and_hazards.md) -/

/-- A command word that decodes is run by the step on the state with that word taken; nothing else happens around it.
That the host's words wait in a list is the model's choice: notes/assumptions/1.md. -/
def Obligations.StepRunsTheDecodedCommand : Prop :=
  ∀ (s : State) (w : CmdWord) (rest : List HostInput) (i : Instr),
    s.pending = .command w :: rest → decode w = .ok i → step s = exec i { s with pending := rest }

/-- The word placed by withFetchWord is the one the next step runs, and the state it runs in is the one it was placed
in. How a program comes to run is the model's choice: notes/assumptions/1.md. -/
def Obligations.PlacedWordIsRunNext : Prop :=
  ∀ (s : State) (w : CmdWord) (i : Instr), decode w = .ok i → step (s.withFetchWord 48 w.toNat) = exec i s

/-- With no host input a block that is not faulted waits and nothing changes. The model's choice:
notes/assumptions/2.md. -/
def Obligations.BlockWithNoInputWaits : Prop :=
  ∀ s : State, s.fault = 0#3 → s.pending = [] → step s = .next s

/-- R133: while FAULT is not 0 the block takes no step, for any command word and for none, and no command has an outcome;
and a faulted state is no successful end of a run. -/
def Obligations.FaultedBlockTakesNoStep : Prop :=
  ∀ s : State, s.fault ≠ 0#3 →
    (nextInput s ≠ some .reset → step s = .fault (.blockFaulted s.fault)) ∧
    (∀ i : Instr, exec i s = .fault (.blockFaulted s.fault)) ∧
    ∀ last : Option CommandResult, Run.endedWell ⟨s, last⟩ = false

/-- A reset gives a fresh block from every state, a faulted one among them: INITIALIZED 0, FAULT 0, an empty trace, no bus
event. That a reset is an input between commands is the model's choice, notes/assumptions/3.md, and so is that it keeps
the host's further inputs and the bytes of the coming reads, notes/assumptions/10.md. -/
def Obligations.ResetGivesAFreshBlock : Prop :=
  ∀ (s : State) (rest : List HostInput), s.pending = .reset :: rest →
    ∃ t, step s = .next t ∧ t.initialized = false ∧ t.fault = 0#3 ∧ t.trace = [] ∧ t.pending = rest ∧
      t.reads = s.reads

/-- The reset values of INITIALIZED, FAULT and the trace (10_state.md R30). -/
def Obligations.ResetStateIsFresh : Prop :=
  State.reset.initialized = false ∧ State.reset.fault = 0#3 ∧ State.reset.trace = []

/-- The table of R132 with the priority of R134 and the precision of R135, for every command word: a block that is not
faulted takes the step, FAULT takes exactly the code of the table, and the events before a fault are none, but the
InitSeq events of a block not initialised for DUTY_RANGE. Codes 6 and 7 are never produced, and a step that runs no
command word raises nothing: that there are such steps, waiting and a reset as an input, is the model's choice,
notes/assumptions/2.md, notes/assumptions/3.md. -/
def Obligations.EveryWordRaisesItsFaultAndNoOther : Prop :=
  (∀ (s : State) (w : CmdWord) (rest : List HostInput),
    s.fault = 0#3 → s.pending = .command w :: rest →
    ∃ t, step s = .next t ∧ t.pending = rest ∧ t.fault = expectedFault w ∧
      (t.fault ≠ 0#3 → t.fault ≠ 5#3 → t.trace = s.trace ∧ t.initialized = s.initialized) ∧
      (t.fault = 5#3 →
        t.trace = s.trace ++ (if s.initialized then [] else initTrace (nextRead s)) ∧ t.initialized = true)) ∧
  (∀ w : CmdWord, (expectedFault w).toNat ≤ 5) ∧
  ∀ s t : State, step s = .next t → (∀ w, nextInput s ≠ some (.command w)) → t.fault = 0#3

/-- R21: FAULT is written only on fault entry, from 0 to a cause, and nothing but a reset clears it. -/
def Obligations.FaultIsWrittenOnEntryOnly : Prop :=
  ∀ s t : State, step s = .next t → t.fault ≠ s.fault →
    nextInput s = some .reset ∨ s.fault = 0#3 ∧ 1 ≤ t.fault.toNat ∧ t.fault.toNat ≤ 5

/-- R20, R83: INITIALIZED is set only by a step that adds a complete InitSeq trace, and is cleared only by a reset. -/
def Obligations.InitializedIsSetByInitSeqOnly : Prop :=
  ∀ s t : State, step s = .next t → t.initialized ≠ s.initialized →
    (t.initialized = true ∧ ∃ m evs, t.trace = s.trace ++ initTrace m ++ evs) ∨
    (t.initialized = false ∧ nextInput s = some .reset)

/-- R43: the base register of channel n is 0x06 + 4n; and every step but a reset only adds to the trace, and what it
adds writes no register of a device but 0x40 and none of that one outside 0x00, 0xFE and 0x06 to 0x45, and reads only
0x00. -/
def Obligations.StepTouchesOnlyTheBlocksRegisters : Prop :=
  (∀ n : Nat, n < 16 → (chanBase Config.hw n).toNat = 0x06 + 4 * n) ∧
  ∀ s t : State, step s = .next t → nextInput s ≠ some .reset →
    ∃ evs, t.trace = s.trace ++ evs ∧ ∀ e ∈ evs,
      (∀ dev reg v, ((dev, reg), v) ∈ e.stores →
        dev = 0x40#8 ∧ (reg = 0x00#8 ∨ reg = 0xFE#8 ∨ 0x06 ≤ reg.toNat ∧ reg.toNat ≤ 0x45)) ∧
      (∀ dev reg v, e = .rd dev reg v → dev = 0x40#8 ∧ reg = 0x00#8)

/-- R49: what the transport reports of a transaction, and how long a wait really lasts (R140), change nothing else: from
states that differ only there, a step gives states that differ only there. How the outcomes and lengths are held is the
model's choice: notes/assumptions/5.md, notes/assumptions/6.md. -/
def Obligations.TransportOutcomesNeverMatter : Prop :=
  ∀ s s' t : State, s.forgetTransport = s'.forgetTransport → step s = .next t →
    ∃ t', step s' = .next t' ∧ t.forgetTransport = t'.forgetTransport

/-! ## Invariants of a power-up session -/

/-- The session invariant holds right after reset. -/
def Obligations.SessionInvariantAtReset : Prop := SessionInv State.reset

/-- Every step keeps the session invariant, from every state that has it. -/
def Obligations.StepKeepsTheSessionInvariant : Prop :=
  ∀ s t : State, SessionInv s → step s = .next t → SessionInv t

/-- R152: INITIALIZED = 1 exactly when, since the last reset, the block has emitted a complete InitSeq trace. -/
def Obligations.InitializedExactlyWhenInitSeqEmitted : Prop :=
  ∀ s : State, SessionInv s → (s.initialized = true ↔ HasInitSeq s.trace)

/-- R151: between resets InitSeq runs at most once: its trace stands at one place of the block's trace. -/
def Obligations.InitSeqStandsOnceInTheTrace : Prop :=
  ∀ (s : State) (pre post pre' post' : List BusEvent) (m m' : Byte), SessionInv s →
    s.trace = pre ++ initTrace m ++ post → s.trace = pre' ++ initTrace m' ++ post' →
    pre = pre' ∧ m = m' ∧ post = post'

/-- The record invariant holds right after reset. The record is the model's own: notes/assumptions/5.md,
notes/assumptions/6.md. -/
def Obligations.RecordInvariantAtReset : Prop := RecordInv State.reset

/-- Every step keeps the record invariant: one report for each transaction, one length of at least 5000 microseconds for
each wait (R140). The record is the model's own: notes/assumptions/5.md, notes/assumptions/6.md. -/
def Obligations.StepKeepsTheRecordInvariant : Prop :=
  ∀ s t : State, RecordInv s → step s = .next t → RecordInv t

/-! ## INIT (40_init.md) -/

/-- INIT on a block not initialised (R80, R84): the 23 events of R84, with m the byte the MODE1 read returns, then
INITIALIZED 1; 22 transactions and one wait; FAULT, PULSE, DUTY and the host's inputs unchanged. That a command keeps the
latches it does not write is the model's choice, notes/assumptions/7.md, and the records that count waits and transactions
are the model's own, notes/assumptions/5.md, notes/assumptions/6.md. -/
def Obligations.InitRunsTheInitSequence : Prop :=
  ∀ s : State, s.fault = 0#3 → s.initialized = false →
    ∃ t, exec .init s = .next t ∧ t.trace = s.trace ++ initTrace (nextRead s) ∧ t.initialized = true ∧
      t.fault = s.fault ∧ t.pulse = s.pulse ∧ t.duty = s.duty ∧ t.pending = s.pending ∧ t.reads = s.reads.tail ∧
      t.acked.length = s.acked.length + 22 ∧ t.waits.length = s.waits.length + 1

/-- R86: on an initialised block EnsureInit does nothing, INIT changes nothing, the servo commands add the events of their
own channel load and no other (none where SERVO raises DUTY_RANGE), and INITIALIZED stays 1 until a reset. -/
def Obligations.InitialisedBlockIsNotInitialisedAgain : Prop :=
  (∀ s : State, s.fault = 0#3 → s.initialized = true → exec .init s = .next s) ∧
  (∀ s : State, s.initialized = true → ensureInit Config.hw s = .go s) ∧
  (∀ (s : State) (ch : Byte) (x : Operand), s.fault = 0#3 → s.initialized = true →
    (∃ t, exec (.servo ch x) s = .next t ∧ t.initialized = true ∧
      t.trace = s.trace ++ (if ch.toNat ≤ 15 ∧ 31940 ≤ x.toNat then []
        else servoLoadTrace ch ((10 * x.toNat + 600) * 4096 / 20000))) ∧
    (∃ t, exec (.servoPulse ch x) s = .next t ∧ t.initialized = true ∧
      t.trace = s.trace ++ servoLoadTrace ch (x.toNat * 4096 / 20000))) ∧
  (∀ s t : State, s.initialized = true → step s = .next t → nextInput s ≠ some .reset → t.initialized = true)

/-- R85: InitSeq never faults, its prescale being 121: an INIT that passes decode, and the EnsureInit of the servo commands, completes with the
block not faulted. -/
def Obligations.InitSeqNeverFaults : Prop :=
  prescale Config.hw 50 = 121 ∧
  ∀ s : State, ∃ t, initSeq Config.hw s = .go t ∧ t.fault = s.fault ∧
    (∃ u, ensureInit Config.hw s = .go u ∧ u.fault = s.fault ∧ u.initialized = true) ∧
    (s.fault = 0#3 → ∃ u, exec .init s = .next u ∧ u.fault = 0#3 ∧ u.initialized = true)

/-! ## SET_FREQ (41_prescale.md) -/

/-- R95, R96: on a frequency with a legal prescale SET_FREQ completes with its six events, m the byte the read returns
and the prescale 6103 // f - 1; INITIALIZED, FAULT, PULSE, DUTY and the host's inputs unchanged. That a command keeps the
latches it does not write is the model's choice: notes/assumptions/7.md. -/
def Obligations.SetFreqRunsItsSequence : Prop :=
  ∀ (s : State) (f : Operand), s.fault = 0#3 → 24 ≤ f.toNat → f.toNat ≤ 6103 →
    ∃ t, exec (.setFreq f) s = .next t ∧
      t.trace = s.trace ++ freqTrace (BitVec.ofNat 8 (6103 / f.toNat - 1)) (nextRead s) ∧
      t.initialized = s.initialized ∧ t.fault = s.fault ∧ t.pulse = s.pulse ∧ t.duty = s.duty ∧
      t.pending = s.pending ∧ t.reads = s.reads.tail

/-- R92: a zero frequency raises FREQ_ZERO, cause 3, before any bus event, and nothing else changes. -/
def Obligations.ZeroFrequencyRaisesItsFault : Prop :=
  ∀ s : State, s.fault = 0#3 → exec (.setFreq 0#16) s = .next { s with fault := 3#3 }

/-- R93: a prescale below 0 or above 255 raises PRESCALE_RANGE, cause 4, before any bus event, and nothing else changes;
any other is the byte written to PRESCALE. The prescale is that of R90, truncated after each step. -/
def Obligations.PrescaleIsAByteOrAFault : Prop :=
  ∀ (s : State) (f : Operand) (p : Int), s.fault = 0#3 → f ≠ 0#16 →
    p = ((25000000 / 4096 / f.toNat : Nat) : Int) - 1 →
    ((p < 0 ∨ p > 255) → exec (.setFreq f) s = .next { s with fault := 4#3 }) ∧
    (¬(p < 0 ∨ p > 255) → ∃ t m v, exec (.setFreq f) s = .next t ∧ (v.toNat : Int) = p ∧
      t.trace = s.trace ++ freqTrace v m)

/-- R90, R91: the prescale truncated after each step is the one of a single truncation. -/
def Obligations.PrescaleTruncatesOnce : Prop :=
  ∀ f : Nat, 1 ≤ f → prescale Config.hw f = ((25000000 / (4096 * f) : Nat) : Int) - 1

/-- R94: the prescale is in [0, 255] exactly for 24 ≤ f ≤ 6103; the boundary values and outcomes of its table; and 254 and
255 are reached by no frequency. -/
def Obligations.LegalFrequencies : Prop :=
  (∀ f : Nat, 1 ≤ f → ((0 ≤ prescale Config.hw f ∧ prescale Config.hw f ≤ 255) ↔ (24 ≤ f ∧ f ≤ 6103))) ∧
  prescale Config.hw 1 = 6102 ∧ prescale Config.hw 23 = 264 ∧ prescale Config.hw 24 = 253 ∧
  prescale Config.hw 6103 = 0 ∧ prescale Config.hw 6104 = -1 ∧ prescale Config.hw 65535 = -1 ∧
  (∀ f : Nat, 1 ≤ f → prescale Config.hw f ≠ 254 ∧ prescale Config.hw f ≠ 255) ∧
  ∀ s : State, s.fault = 0#3 →
    exec (.setFreq 0#16) s = .next { s with fault := 3#3 } ∧
    (∀ f : Operand, f = 1#16 ∨ f = 23#16 ∨ f = 6104#16 ∨ f = 65535#16 →
      exec (.setFreq f) s = .next { s with fault := 4#3 }) ∧
    (∃ t m, exec (.setFreq 24#16) s = .next t ∧ t.trace = s.trace ++ freqTrace 253#8 m ∧ t.fault = 0#3) ∧
    (∃ t m, exec (.setFreq 6103#16) s = .next t ∧ t.trace = s.trace ++ freqTrace 0#8 m ∧ t.fault = 0#3)

/-- R97, R98: of the three MODE1 writes the first is the value read with bit 4 set, the second the value read, the third
the value read with bits 7, 5 and 0 set, and every other bit is as it was read. -/
def Obligations.Mode1WritesSetOnlyTheirBits : Prop :=
  ∀ (s : State) (f : Operand), s.fault = 0#3 → 24 ≤ f.toNat → f.toNat ≤ 6103 →
    ∃ t m p v v', exec (.setFreq f) s = .next t ∧
      t.trace = s.trace ++ [.rd 0x40#8 0x00#8 m, .wr 0x40#8 0x00#8 v, .wr 0x40#8 0xFE#8 p, .wr 0x40#8 0x00#8 m,
        .dly 5000, .wr 0x40#8 0x00#8 v'] ∧
      ∀ k < 8, v.getLsbD k = (k == 4 || m.getLsbD k) ∧
        v'.getLsbD k = (k == 7 || k == 5 || k == 0 || m.getLsbD k)

/-- R47, R95: whatever byte the transport returns to the read is the one in the Rd event and in the three writes. -/
def Obligations.AnyByteCanBeRead : Prop :=
  ∀ (s : State) (f : Operand) (m : Byte) (more : List Byte), s.fault = 0#3 → 24 ≤ f.toNat → f.toNat ≤ 6103 →
    s.reads = m :: more →
    ∃ t p, exec (.setFreq f) s = .next t ∧ t.trace = s.trace ++ freqTrace p m ∧ t.reads = more

/-- R99, R140, R159: the wait of a SET_FREQ, and of an INIT that runs InitSeq, lasts at least 5000 microseconds. How its
length is held is the model's choice: notes/assumptions/5.md. -/
def Obligations.SettleWaitIsLongEnough : Prop :=
  (∀ (s : State) (f : Operand), s.fault = 0#3 → 24 ≤ f.toNat → f.toNat ≤ 6103 →
    ∃ t us, exec (.setFreq f) s = .next t ∧ t.waits = s.waits ++ [us] ∧ 5000 ≤ us) ∧
  (∀ s : State, s.fault = 0#3 → s.initialized = false →
    ∃ t us, exec .init s = .next t ∧ t.waits = s.waits ++ [us] ∧ 5000 ≤ us)

/-- The registers SET_FREQ sends bytes to (R95): MODE1 and PRESCALE; every other register's last byte is as before. -/
def Obligations.SetFreqReachesOnlyMode1AndPrescale : Prop :=
  ∀ (s t : State) (f : Operand) (dev reg : Byte), exec (.setFreq f) s = .next t →
    (dev, reg) ≠ (0x40#8, 0x00#8) → (dev, reg) ≠ (0x40#8, 0xFE#8) →
    lastWritten t.trace dev reg = lastWritten s.trace dev reg

/-- R100: SET_FREQ neither reads nor writes INITIALIZED, and after a SET_FREQ on a block not initialised a SERVO still
runs the full InitSeq, whose prescale is that of 50 Hz. -/
def Obligations.SetFreqIgnoresInitialized : Prop :=
  ∀ (s t : State) (f : Operand), exec (.setFreq f) s = .next t →
    t.initialized = s.initialized ∧
    (∀ b : Bool, exec (.setFreq f) { s with initialized := b } = .next { t with initialized := b }) ∧
    (s.initialized = false → t.fault = 0#3 → ∀ (ch : Byte) (d : Operand),
      ∃ u evs, exec (.servo ch d) t = .next u ∧ u.trace = t.trace ++ initTrace (nextRead t) ++ evs)

/-! ## SET_PWM and the channel load (42_channel_load.md) -/

/-- R105, R106, R109, R111: on a valid channel SET_PWM completes with one block write of on and off, each split low byte
first, unmasked and unclamped; all other state of the block is unchanged. That a command keeps the latches it does not
write is the model's choice, notes/assumptions/7.md, and the bytes of the coming reads and the record of waits are the
model's own, notes/assumptions/4.md, notes/assumptions/5.md. -/
def Obligations.SetPwmLoadsTheWindow : Prop :=
  ∀ (s : State) (ch : Byte) (on off : Operand), s.fault = 0#3 → ch.toNat ≤ 15 →
    ∃ t, exec (.setPwm ch on off) s = .next t ∧
      t.trace = s.trace ++ [.wrBlk 0x40#8 (BitVec.ofNat 8 (0x06 + 4 * ch.toNat)) (on.extractLsb' 0 8)
        (on.extractLsb' 8 8) (off.extractLsb' 0 8) (off.extractLsb' 8 8)] ∧
      t.initialized = s.initialized ∧ t.fault = s.fault ∧ t.oldmode = s.oldmode ∧ t.presc = s.presc ∧
      t.pulse = s.pulse ∧ t.duty = s.duty ∧ t.pending = s.pending ∧ t.reads = s.reads ∧ t.waits = s.waits

/-- R107: a channel load of an invalid channel, whatever its on and off, emits nothing, raises nothing and changes
nothing, and so does a SET_PWM. -/
def Obligations.InvalidChannelIsDropped : Prop :=
  (∀ (s : State) (ch on off : Nat), 16 ≤ ch → channelLoad Config.hw ch on off s = .go s) ∧
  (∀ (s : State) (ch : Byte) (on off : Operand), s.fault = 0#3 → 16 ≤ ch.toNat →
    exec (.setPwm ch on off) s = .next s)

/-- R108: on a valid channel an on or off above 0xFFFF raises DUTY_RANGE, cause 5, with no event. Of the commands only a
SERVO with an angle of 31940 or more can raise it, and on a valid channel it does. -/
def Obligations.WideDutyRaisesItsFault : Prop :=
  (∀ (s : State) (ch on off : Nat), ch ≤ 15 → 0xFFFF < on ∨ 0xFFFF < off →
    channelLoad Config.hw ch on off s = .ended { s with fault := 5#3 }) ∧
  (∀ (s t : State) (i : Instr), exec i s = .next t → t.fault = 5#3 →
    ∃ ch d, i = .servo ch d ∧ ch.toNat ≤ 15 ∧ 31940 ≤ d.toNat) ∧
  (∀ (s : State) (ch : Byte) (d : Operand), s.fault = 0#3 → ch.toNat ≤ 15 → 31940 ≤ d.toNat →
    ∃ t, exec (.servo ch d) s = .next t ∧ t.fault = 5#3)

/-- R110: SET_PWM neither reads nor writes INITIALIZED, and on a valid channel of a block not initialised it still emits
its block write, that of its own channel and window (R105), and nothing else. -/
def Obligations.SetPwmIgnoresInitialized : Prop :=
  ∀ (s t : State) (ch : Byte) (on off : Operand), exec (.setPwm ch on off) s = .next t →
    t.initialized = s.initialized ∧
    (∀ b : Bool, exec (.setPwm ch on off) { s with initialized := b } = .next { t with initialized := b }) ∧
    (s.initialized = false → ch.toNat ≤ 15 →
      t.trace = s.trace ++ [windowEvent Config.hw (channelVal ch) (operandVal on) (operandVal off)])

/-- The registers a channel load sends bytes to (R105; 20_memory.md R41, R43): the four of its channel, from the base
register the meaning computes. SET_PWM, and the servo commands on an initialised block, leave every other register's last
byte as before. -/
def Obligations.ChannelLoadReachesOnlyItsChannel : Prop :=
  ∀ (s t : State) (ch : Byte) (x y : Operand) (i : Instr) (dev reg : Byte),
    (i = .setPwm ch x y ∨ s.initialized = true ∧ (i = .servo ch x ∨ i = .servoPulse ch x)) →
    exec i s = .next t →
    (∀ k : Nat, k < 4 → (dev, reg) ≠ (0x40#8, chanBase Config.hw (channelVal ch) + BitVec.ofNat 8 k)) →
    lastWritten t.trace dev reg = lastWritten s.trace dev reg

/-- R41, R42, R45: after a SET_PWM of a valid channel the four registers of the channel were last sent on low, on high,
off low, off high, in this order from the base register up. -/
def Obligations.ChannelRegistersAreLittleEndian : Prop :=
  ∀ (s t : State) (ch : Byte) (on off : Operand), ch.toNat ≤ 15 → exec (.setPwm ch on off) s = .next t →
    lastWritten t.trace 0x40#8 (BitVec.ofNat 8 (0x06 + 4 * ch.toNat)) = some (on.extractLsb' 0 8) ∧
    lastWritten t.trace 0x40#8 (BitVec.ofNat 8 (0x06 + 4 * ch.toNat + 1)) = some (on.extractLsb' 8 8) ∧
    lastWritten t.trace 0x40#8 (BitVec.ofNat 8 (0x06 + 4 * ch.toNat + 2)) = some (off.extractLsb' 0 8) ∧
    lastWritten t.trace 0x40#8 (BitVec.ofNat 8 (0x06 + 4 * ch.toNat + 3)) = some (off.extractLsb' 8 8)

/-! ## SERVO and SERVO_PULSE (43_servo.md) -/

/-- R117, R119: SERVO completes on an invalid channel, and on a valid one with an angle below 31940: EnsureInit, then the
load of the tick of 10*d + 600 microseconds; INITIALIZED 1; FAULT and the host's inputs unchanged, and on an initialised
block OLDMODE, PRESC, the reads and the waits too. That a command keeps the latches it does not write is the model's
choice: notes/assumptions/7.md. -/
def Obligations.ServoDrivesTheChannel : Prop :=
  ∀ (s : State) (ch : Byte) (d : Operand), s.fault = 0#3 → (16 ≤ ch.toNat ∨ d.toNat < 31940) →
    ∃ t, exec (.servo ch d) s = .next t ∧
      t.trace = s.trace ++ lazyInitTrace s ++ servoLoadTrace ch ((10 * d.toNat + 600) * 4096 / 20000) ∧
      t.initialized = true ∧ t.fault = s.fault ∧ t.pending = s.pending ∧
      (s.initialized = true →
        t.oldmode = s.oldmode ∧ t.presc = s.presc ∧ t.reads = s.reads ∧ t.waits = s.waits)

/-- R117, R121: SERVO on a valid channel with an angle of 31940 or more raises DUTY_RANGE, after EnsureInit's events,
which stay; nothing is loaded. -/
def Obligations.ServoWithAWideAngleFaults : Prop :=
  ∀ (s : State) (ch : Byte) (d : Operand), s.fault = 0#3 → ch.toNat ≤ 15 → 31940 ≤ d.toNat →
    ∃ t, exec (.servo ch d) s = .next t ∧ t.fault = 5#3 ∧ t.initialized = true ∧
      t.trace = s.trace ++ lazyInitTrace s ∧ t.pending = s.pending

/-- R118, R119: SERVO_PULSE completes on every operand: EnsureInit, then the load of the tick of p microseconds;
INITIALIZED 1; FAULT, PULSE and the host's inputs unchanged, and on an initialised block OLDMODE, PRESC, the reads and the
waits too. That a command keeps the latches it does not write is the model's choice: notes/assumptions/7.md. -/
def Obligations.ServoPulseDrivesTheChannel : Prop :=
  ∀ (s : State) (ch : Byte) (p : Operand), s.fault = 0#3 →
    ∃ t, exec (.servoPulse ch p) s = .next t ∧
      t.trace = s.trace ++ lazyInitTrace s ++ servoLoadTrace ch (p.toNat * 4096 / 20000) ∧
      t.initialized = true ∧ t.fault = s.fault ∧ t.pulse = s.pulse ∧ t.pending = s.pending ∧
      (s.initialized = true →
        t.oldmode = s.oldmode ∧ t.presc = s.presc ∧ t.reads = s.reads ∧ t.waits = s.waits)

/-- R124: SERVO ch, d and SERVO_PULSE ch, 10*d+600 emit identical traces from identical states, for d ≤ 6493, and leave
the same INITIALIZED and FAULT; 90 degrees and 1500 microseconds both give duty 307. -/
def Obligations.ServoAndServoPulseConverge : Prop :=
  (∀ (s : State) (ch : Byte) (d : Operand), s.fault = 0#3 → d.toNat ≤ 6493 →
    ∃ t u, exec (.servo ch d) s = .next t ∧
      exec (.servoPulse ch (BitVec.ofNat 16 (10 * d.toNat + 600))) s = .next u ∧ t.observation = u.observation) ∧
  pulseToTick Config.hw (angleToPulse Config.hw 90) = 307 ∧ pulseToTick Config.hw 1500 = 307

/-- R115: the pulse width of an angle is 10*d + 600, in [600, 655950]; it fits in 20 bits and not in 19. -/
def Obligations.AngleToPulseIsLinear : Prop :=
  (∀ d : Operand, angleToPulse Config.hw d.toNat = d.toNat * 1800 / 180 + 600 ∧
    angleToPulse Config.hw d.toNat = 10 * d.toNat + 600 ∧ 600 ≤ angleToPulse Config.hw d.toNat ∧
    angleToPulse Config.hw d.toNat ≤ 655950 ∧ angleToPulse Config.hw d.toNat < 2 ^ 20) ∧
  angleToPulse Config.hw 65535 = 655950 ∧ 2 ^ 19 ≤ angleToPulse Config.hw 65535

/-- R116: the duty tick is truncated, and a 32-bit unsigned datapath is exact for every input. -/
def Obligations.PulseToTickTruncates : Prop :=
  (∀ p : Nat, pulseToTick Config.hw p = p * 4096 / 20000) ∧
  (∀ p : Nat, p ≤ 655950 → p * 4096 < 2 ^ 32 ∧ pulseToTick Config.hw p < 2 ^ 18) ∧
  pulseToTick Config.hw 600 = 122 ∧ pulseToTick Config.hw 2400 = 491

/-- R121: the SERVO output ranges. -/
def Obligations.ServoOutputRanges : Prop :=
  angleToPulse Config.hw 0 = 600 ∧ pulseToTick Config.hw (angleToPulse Config.hw 0) = 122 ∧
  angleToPulse Config.hw 90 = 1500 ∧ pulseToTick Config.hw (angleToPulse Config.hw 90) = 307 ∧
  angleToPulse Config.hw 180 = 2400 ∧ pulseToTick Config.hw (angleToPulse Config.hw 180) = 491 ∧
  (∀ d : Nat, d ≤ 180 → 600 ≤ angleToPulse Config.hw d ∧ angleToPulse Config.hw d ≤ 2400 ∧
    122 ≤ pulseToTick Config.hw (angleToPulse Config.hw d) ∧ pulseToTick Config.hw (angleToPulse Config.hw d) ≤ 491) ∧
  (∀ d : Nat, pulseToTick Config.hw (angleToPulse Config.hw d) ≤ 4095 ↔ d ≤ 1939) ∧
  (∀ d : Nat, pulseToTick Config.hw (angleToPulse Config.hw d) ≤ 0xFFFF ↔ d ≤ 31939) ∧
  angleToPulse Config.hw 1939 = 19990 ∧ pulseToTick Config.hw (angleToPulse Config.hw 1939) = 4093 ∧
  angleToPulse Config.hw 1940 = 20000 ∧ pulseToTick Config.hw (angleToPulse Config.hw 1940) = 4096 ∧
  angleToPulse Config.hw 31939 = 319990 ∧ pulseToTick Config.hw (angleToPulse Config.hw 31939) = 65533 ∧
  angleToPulse Config.hw 31940 = 320000 ∧ pulseToTick Config.hw (angleToPulse Config.hw 31940) = 65536 ∧
  angleToPulse Config.hw 65535 = 655950 ∧ pulseToTick Config.hw (angleToPulse Config.hw 65535) = 134338 ∧
  (∀ (s : State) (ch : Byte), s.fault = 0#3 → ch.toNat ≤ 15 →
    (∃ t, exec (.servo ch 31940#16) s = .next t ∧ t.fault = 5#3) ∧
    (∃ t, exec (.servo ch 65535#16) s = .next t ∧ t.fault = 5#3))

/-- R122: the SERVO_PULSE output ranges. -/
def Obligations.ServoPulseOutputRanges : Prop :=
  (∀ p : Nat, p ≤ 4 → pulseToTick Config.hw p = 0) ∧
  pulseToTick Config.hw 500 = 102 ∧ pulseToTick Config.hw 1500 = 307 ∧ pulseToTick Config.hw 2500 = 512 ∧
  pulseToTick Config.hw 19999 = 4095 ∧ pulseToTick Config.hw 20000 = 4096 ∧
  (∀ p : Nat, pulseToTick Config.hw p ≤ 4095 ↔ p ≤ 19999) ∧
  pulseToTick Config.hw 65535 = 13421 ∧
  ∀ (s : State) (ch : Byte), s.fault = 0#3 → ∃ t, exec (.servoPulse ch 65535#16) s = .next t ∧ t.fault = 0#3

/-- R123: every event a servo command adds after those of EnsureInit is a block write with on = 0, both its bytes
0x00. -/
def Obligations.ServoOnTickIsZero : Prop :=
  ∀ (s t : State) (ch : Byte) (x : Operand) (i : Instr),
    (i = .servo ch x ∨ i = .servoPulse ch x) → exec i s = .next t →
    ∃ evs, t.trace = s.trace ++ lazyInitTrace s ++ evs ∧
      ∀ e ∈ evs, ∃ reg lo hi, e = .wrBlk 0x40#8 reg 0x00#8 0x00#8 lo hi

/-- R101, R157: whatever frequency a SET_FREQ has programmed, the servo commands add the same events after it as
before. -/
def Obligations.SetFreqLeavesTheServoConverterAlone : Prop :=
  ∀ (s t : State) (f : Operand) (ch : Byte) (x : Operand) (i : Instr),
    s.initialized = true → exec (.setFreq f) s = .next t → t.fault = 0#3 →
    (i = .servo ch x ∨ i = .servoPulse ch x) →
    ∃ u v evs, exec i s = .next u ∧ exec i t = .next v ∧ u.trace = s.trace ++ evs ∧ v.trace = t.trace ++ evs ∧
      u.fault = v.fault

/-! ## The end of a run (70_reset_and_hazards.md) -/

/-- R162: after a step that runs a command word the run has ended successfully exactly when no command word is left and the
command completed with Done, no fault of R132 raised; a reset keeps how the last command ended, so that one after a
Faulted command ends nothing well; and a run that has run no command has not ended successfully. That the host's words wait
in a list, that a reset is an input, and that a run goes on over a reset are the model's choices: notes/assumptions/1.md,
notes/assumptions/3.md, notes/assumptions/16.md; that a run of no command has not ended successfully is deduced from R162,
notes/assumptions/15.md. -/
def Obligations.RunEndsWellByALastCommandDone : Prop :=
  (∀ (r : Run) (w : CmdWord) (rest : List HostInput),
    r.state.fault = 0#3 → r.state.pending = .command w :: rest →
    ∃ r', r.next = some r' ∧ r'.state.pending = rest ∧
      r'.last = some (if expectedFault w = 0#3 then .done else .faulted (expectedFault w)) ∧
      (r'.endedWell = true ↔ (∀ v, .command v ∉ rest) ∧ expectedFault w = 0#3)) ∧
  (∀ (r : Run) (rest : List HostInput), r.state.pending = .reset :: rest →
    ∃ r', r.next = some r' ∧ r'.state.pending = rest ∧ r'.last = r.last ∧
      (r'.endedWell = true ↔ (∀ v, .command v ∉ rest) ∧ r.last = some .done)) ∧
  ∀ s : State, (Run.start s).endedWell = false

/-- R162, R133: a run of words that raise no fault, at least one, ends successfully when they have all run; a run in which
a word raises a fault is stuck after it and has not ended successfully. That the host's words wait in a list is the
model's choice: notes/assumptions/1.md. -/
def Obligations.RunOfLegalWordsEndsWell : Prop :=
  (∀ (s : State) (words : List CmdWord), s.fault = 0#3 → s.pending = words.map .command → words ≠ [] →
    (∀ w ∈ words, expectedFault w = 0#3) →
    ∃ r, (Run.start s).steps words.length = some r ∧ r.endedWell = true) ∧
  ∀ (s : State) (before after : List CmdWord) (w : CmdWord), s.fault = 0#3 →
    s.pending = (before ++ w :: after).map .command →
    (∀ v ∈ before, expectedFault v = 0#3) → expectedFault w ≠ 0#3 →
    ∃ r, (Run.start s).steps (before.length + 1) = some r ∧ r.state.fault = expectedFault w ∧
      r.state.stuck = true ∧ r.next = none ∧ r.endedWell = false

/-- R162: neither whether a run has ended successfully nor its observation says anything of the transport's outcomes or of
how long a wait lasted. How these are held is the model's choice, notes/assumptions/5.md, notes/assumptions/6.md, and so
is that the observed trace counts from the last reset, notes/assumptions/17.md. -/
def Obligations.RunEndSaysNothingOfTheTransport : Prop :=
  ∀ (s s' : State) (last : Option CommandResult), s.forgetTransport = s'.forgetTransport →
    Run.endedWell ⟨s, last⟩ = Run.endedWell ⟨s', last⟩ ∧ s.observation = s'.observation
end

