-- ==== Sys2Proof/Laws/Config.lean ====
section
/-! SUPPORT. The constants of this hardware, each at the value 00_scope.md R7, R8, R9 give it. -/

namespace Sys2Proof

@[simp] theorem Config.hw_oscHz : Config.hw.oscHz = 25000000 := rfl
@[simp] theorem Config.hw_ticks : Config.hw.ticks = 4096 := rfl
@[simp] theorem Config.hw_periodUs : Config.hw.periodUs = 20000 := rfl
@[simp] theorem Config.hw_defaultFreqHz : Config.hw.defaultFreqHz = 50 := rfl
@[simp] theorem Config.hw_angleSpanUs : Config.hw.angleSpanUs = 1800 := rfl
@[simp] theorem Config.hw_angleSpanDeg : Config.hw.angleSpanDeg = 180 := rfl
@[simp] theorem Config.hw_pulseOffsetUs : Config.hw.pulseOffsetUs = 600 := rfl
@[simp] theorem Config.hw_mode1Init : Config.hw.mode1Init = 0x00#8 := rfl
@[simp] theorem Config.hw_mode1Sleep : Config.hw.mode1Sleep = 0x10#8 := rfl
@[simp] theorem Config.hw_mode1WakeSet : Config.hw.mode1WakeSet = 0xA1#8 := rfl
@[simp] theorem Config.hw_oscSettleUs : Config.hw.oscSettleUs = 5000 := rfl
@[simp] theorem Config.hw_initCh0On : Config.hw.initCh0On = 0 := rfl
@[simp] theorem Config.hw_initCh0Off : Config.hw.initCh0Off = 4095 := rfl
@[simp] theorem Config.hw_initChnOn : Config.hw.initChnOn = 0 := rfl
@[simp] theorem Config.hw_initChnOff : Config.hw.initChnOff = 0 := rfl
@[simp] theorem Config.hw_devAddr : Config.hw.devAddr = 0x40#8 := rfl
@[simp] theorem Config.hw_regMode1 : Config.hw.regMode1 = 0x00#8 := rfl
@[simp] theorem Config.hw_regPrescale : Config.hw.regPrescale = 0xFE#8 := rfl
@[simp] theorem Config.hw_regLed0OnL : Config.hw.regLed0OnL = 0x06#8 := rfl
@[simp] theorem Config.hw_ledStride : Config.hw.ledStride = 4 := rfl
@[simp] theorem Config.hw_numChannels : Config.hw.numChannels = 16 := rfl

end Sys2Proof
end

