-- ==== Sys2Proof/Laws/Encoding.lean ====
section
/-! SUPPORT. The fields of a command word and the word are the same data (30_encoding.md R61). -/

namespace Sys2Proof

theorem CmdFields.ofWord_toWord (f : CmdFields) : CmdFields.ofWord f.toWord = f := by
  obtain ⟨op, ch, a, b⟩ := f
  simp only [CmdFields.ofWord, CmdFields.toWord, CmdFields.mk.injEq]
  refine ⟨?_, ?_, ?_, ?_⟩ <;> apply BitVec.eq_of_getLsbD_eq <;> intro i hi <;>
    simp only [BitVec.getLsbD_extractLsb', BitVec.getLsbD_append]
  · simp [hi, show ¬ 40 + i < 16 by omega, show ¬ 40 + i - 16 < 16 by omega, show ¬ 40 + i - 16 - 16 < 8 by omega,
      show 40 + i - 16 - 16 - 8 = i by omega]
  · simp [hi, show ¬ 32 + i < 16 by omega, show ¬ 32 + i - 16 < 16 by omega, show 32 + i - 16 - 16 = i by omega]
  · simp [hi]
  · simp [hi]

theorem CmdFields.toWord_ofWord (w : CmdWord) : (CmdFields.ofWord w).toWord = w := by
  apply BitVec.eq_of_getLsbD_eq
  intro i hi
  simp only [CmdFields.ofWord, CmdFields.toWord, BitVec.getLsbD_extractLsb', BitVec.getLsbD_append]
  by_cases h1 : i < 16
  · simp [h1]
  · by_cases h2 : i - 16 < 16
    · simp [h1, h2, show 16 + (i - 16) = i by omega]
    · by_cases h3 : i - 16 - 16 < 8
      · simp [h1, h2, h3, show 32 + (i - 16 - 16) = i by omega]
      · simp [h1, h2, h3, show 40 + (i - 16 - 16 - 8) = i by omega, show i - 16 - 16 - 8 < 8 by omega]

/-- Fields that decode to a command are the ones it is encoded with (30_encoding.md R63, R65). -/
theorem decodeFields_fields {f : CmdFields} {i : Instr} (h : decodeFields f = .ok i) : i.fields = f := by
  obtain ⟨op, ch, a, b⟩ := f
  unfold decodeFields at h
  repeat' split at h
  all_goals cases h
  all_goals simp_all [Instr.fields]

end Sys2Proof
end

