-- ==== Sys2Proof/Laws/State.lean ====
section
/-! SUPPORT. What each update of the state does to each field, one lemma per field per update, so that no proof unfolds
a record update. -/

namespace Sys2Proof.Machine

variable (s : State)

@[simp] theorem markInitialized_initialized : (markInitialized s).initialized = true := rfl
@[simp] theorem markInitialized_fault : (markInitialized s).fault = s.fault := rfl
@[simp] theorem markInitialized_oldmode : (markInitialized s).oldmode = s.oldmode := rfl
@[simp] theorem markInitialized_presc : (markInitialized s).presc = s.presc := rfl
@[simp] theorem markInitialized_pulse : (markInitialized s).pulse = s.pulse := rfl
@[simp] theorem markInitialized_duty : (markInitialized s).duty = s.duty := rfl
@[simp] theorem markInitialized_trace : (markInitialized s).trace = s.trace := rfl
@[simp] theorem markInitialized_pending : (markInitialized s).pending = s.pending := rfl
@[simp] theorem markInitialized_reads : (markInitialized s).reads = s.reads := rfl
@[simp] theorem markInitialized_delays : (markInitialized s).delays = s.delays := rfl
@[simp] theorem markInitialized_acks : (markInitialized s).acks = s.acks := rfl
@[simp] theorem markInitialized_waits : (markInitialized s).waits = s.waits := rfl
@[simp] theorem markInitialized_acked : (markInitialized s).acked = s.acked := rfl
@[simp] theorem markInitialized_readCount : (markInitialized s).readCount = s.readCount := rfl
@[simp] theorem markInitialized_draws : (markInitialized s).draws = s.draws := rfl

@[simp] theorem enterFault_initialized (c : FaultCause) : (enterFault c s).initialized = s.initialized := rfl
@[simp] theorem enterFault_fault (c : FaultCause) : (enterFault c s).fault = c.code := rfl
@[simp] theorem enterFault_oldmode (c : FaultCause) : (enterFault c s).oldmode = s.oldmode := rfl
@[simp] theorem enterFault_presc (c : FaultCause) : (enterFault c s).presc = s.presc := rfl
@[simp] theorem enterFault_pulse (c : FaultCause) : (enterFault c s).pulse = s.pulse := rfl
@[simp] theorem enterFault_duty (c : FaultCause) : (enterFault c s).duty = s.duty := rfl
@[simp] theorem enterFault_trace (c : FaultCause) : (enterFault c s).trace = s.trace := rfl
@[simp] theorem enterFault_pending (c : FaultCause) : (enterFault c s).pending = s.pending := rfl
@[simp] theorem enterFault_reads (c : FaultCause) : (enterFault c s).reads = s.reads := rfl
@[simp] theorem enterFault_delays (c : FaultCause) : (enterFault c s).delays = s.delays := rfl
@[simp] theorem enterFault_acks (c : FaultCause) : (enterFault c s).acks = s.acks := rfl
@[simp] theorem enterFault_waits (c : FaultCause) : (enterFault c s).waits = s.waits := rfl
@[simp] theorem enterFault_acked (c : FaultCause) : (enterFault c s).acked = s.acked := rfl
@[simp] theorem enterFault_readCount (c : FaultCause) : (enterFault c s).readCount = s.readCount := rfl
@[simp] theorem enterFault_draws (c : FaultCause) : (enterFault c s).draws = s.draws := rfl

@[simp] theorem transact_initialized (e : BusEvent) : (transact e s).initialized = s.initialized := rfl
@[simp] theorem transact_fault (e : BusEvent) : (transact e s).fault = s.fault := rfl
@[simp] theorem transact_oldmode (e : BusEvent) : (transact e s).oldmode = s.oldmode := rfl
@[simp] theorem transact_presc (e : BusEvent) : (transact e s).presc = s.presc := rfl
@[simp] theorem transact_pulse (e : BusEvent) : (transact e s).pulse = s.pulse := rfl
@[simp] theorem transact_duty (e : BusEvent) : (transact e s).duty = s.duty := rfl
@[simp] theorem transact_trace (e : BusEvent) : (transact e s).trace = s.trace ++ [e] := rfl
@[simp] theorem transact_pending (e : BusEvent) : (transact e s).pending = s.pending := rfl
@[simp] theorem transact_reads (e : BusEvent) : (transact e s).reads = s.reads := rfl
@[simp] theorem transact_delays (e : BusEvent) : (transact e s).delays = s.delays := rfl
@[simp] theorem transact_acks (e : BusEvent) : (transact e s).acks = s.acks.tail := rfl
@[simp] theorem transact_waits (e : BusEvent) : (transact e s).waits = s.waits := rfl
@[simp] theorem transact_acked (e : BusEvent) : (transact e s).acked = s.acked ++ [nextAck s] := rfl
@[simp] theorem transact_readCount (e : BusEvent) : (transact e s).readCount = s.readCount := rfl
@[simp] theorem transact_draws (e : BusEvent) : (transact e s).draws = s.draws + 1 := rfl

@[simp] theorem busReadOldmode_initialized (dev reg : Byte) : (busReadOldmode dev reg s).initialized = s.initialized := rfl
@[simp] theorem busReadOldmode_fault (dev reg : Byte) : (busReadOldmode dev reg s).fault = s.fault := rfl
@[simp] theorem busReadOldmode_oldmode (dev reg : Byte) : (busReadOldmode dev reg s).oldmode = nextRead s := rfl
@[simp] theorem busReadOldmode_presc (dev reg : Byte) : (busReadOldmode dev reg s).presc = s.presc := rfl
@[simp] theorem busReadOldmode_pulse (dev reg : Byte) : (busReadOldmode dev reg s).pulse = s.pulse := rfl
@[simp] theorem busReadOldmode_duty (dev reg : Byte) : (busReadOldmode dev reg s).duty = s.duty := rfl
@[simp] theorem busReadOldmode_trace (dev reg : Byte) : (busReadOldmode dev reg s).trace = s.trace ++ [.rd dev reg (nextRead s)] := rfl
@[simp] theorem busReadOldmode_pending (dev reg : Byte) : (busReadOldmode dev reg s).pending = s.pending := rfl
@[simp] theorem busReadOldmode_reads (dev reg : Byte) : (busReadOldmode dev reg s).reads = s.reads.tail := rfl
@[simp] theorem busReadOldmode_delays (dev reg : Byte) : (busReadOldmode dev reg s).delays = s.delays := rfl
@[simp] theorem busReadOldmode_acks (dev reg : Byte) : (busReadOldmode dev reg s).acks = s.acks.tail := rfl
@[simp] theorem busReadOldmode_waits (dev reg : Byte) : (busReadOldmode dev reg s).waits = s.waits := rfl
@[simp] theorem busReadOldmode_acked (dev reg : Byte) : (busReadOldmode dev reg s).acked = s.acked ++ [nextAck s] := rfl
@[simp] theorem busReadOldmode_readCount (dev reg : Byte) : (busReadOldmode dev reg s).readCount = s.readCount + 1 := rfl
@[simp] theorem busReadOldmode_draws (dev reg : Byte) : (busReadOldmode dev reg s).draws = s.draws + 1 := rfl

@[simp] theorem delay_initialized (us : Nat) : (delay us s).initialized = s.initialized := rfl
@[simp] theorem delay_fault (us : Nat) : (delay us s).fault = s.fault := rfl
@[simp] theorem delay_oldmode (us : Nat) : (delay us s).oldmode = s.oldmode := rfl
@[simp] theorem delay_presc (us : Nat) : (delay us s).presc = s.presc := rfl
@[simp] theorem delay_pulse (us : Nat) : (delay us s).pulse = s.pulse := rfl
@[simp] theorem delay_duty (us : Nat) : (delay us s).duty = s.duty := rfl
@[simp] theorem delay_trace (us : Nat) : (delay us s).trace = s.trace ++ [.dly us] := rfl
@[simp] theorem delay_pending (us : Nat) : (delay us s).pending = s.pending := rfl
@[simp] theorem delay_reads (us : Nat) : (delay us s).reads = s.reads := rfl
@[simp] theorem delay_delays (us : Nat) : (delay us s).delays = s.delays.tail := rfl
@[simp] theorem delay_acks (us : Nat) : (delay us s).acks = s.acks := rfl
@[simp] theorem delay_waits (us : Nat) : (delay us s).waits = s.waits ++ [us + nextExcess s] := rfl
@[simp] theorem delay_acked (us : Nat) : (delay us s).acked = s.acked := rfl
@[simp] theorem delay_readCount (us : Nat) : (delay us s).readCount = s.readCount := rfl
@[simp] theorem delay_draws (us : Nat) : (delay us s).draws = s.draws + 1 := rfl

@[simp] theorem latchPresc_initialized (p : BitVec 8) : (latchPresc p s).initialized = s.initialized := rfl
@[simp] theorem latchPresc_fault (p : BitVec 8) : (latchPresc p s).fault = s.fault := rfl
@[simp] theorem latchPresc_oldmode (p : BitVec 8) : (latchPresc p s).oldmode = s.oldmode := rfl
@[simp] theorem latchPresc_presc (p : BitVec 8) : (latchPresc p s).presc = p := rfl
@[simp] theorem latchPresc_pulse (p : BitVec 8) : (latchPresc p s).pulse = s.pulse := rfl
@[simp] theorem latchPresc_duty (p : BitVec 8) : (latchPresc p s).duty = s.duty := rfl
@[simp] theorem latchPresc_trace (p : BitVec 8) : (latchPresc p s).trace = s.trace := rfl
@[simp] theorem latchPresc_pending (p : BitVec 8) : (latchPresc p s).pending = s.pending := rfl
@[simp] theorem latchPresc_reads (p : BitVec 8) : (latchPresc p s).reads = s.reads := rfl
@[simp] theorem latchPresc_delays (p : BitVec 8) : (latchPresc p s).delays = s.delays := rfl
@[simp] theorem latchPresc_acks (p : BitVec 8) : (latchPresc p s).acks = s.acks := rfl
@[simp] theorem latchPresc_waits (p : BitVec 8) : (latchPresc p s).waits = s.waits := rfl
@[simp] theorem latchPresc_acked (p : BitVec 8) : (latchPresc p s).acked = s.acked := rfl
@[simp] theorem latchPresc_readCount (p : BitVec 8) : (latchPresc p s).readCount = s.readCount := rfl
@[simp] theorem latchPresc_draws (p : BitVec 8) : (latchPresc p s).draws = s.draws := rfl

@[simp] theorem latchPulse_initialized (p : BitVec 20) : (latchPulse p s).initialized = s.initialized := rfl
@[simp] theorem latchPulse_fault (p : BitVec 20) : (latchPulse p s).fault = s.fault := rfl
@[simp] theorem latchPulse_oldmode (p : BitVec 20) : (latchPulse p s).oldmode = s.oldmode := rfl
@[simp] theorem latchPulse_presc (p : BitVec 20) : (latchPulse p s).presc = s.presc := rfl
@[simp] theorem latchPulse_pulse (p : BitVec 20) : (latchPulse p s).pulse = p := rfl
@[simp] theorem latchPulse_duty (p : BitVec 20) : (latchPulse p s).duty = s.duty := rfl
@[simp] theorem latchPulse_trace (p : BitVec 20) : (latchPulse p s).trace = s.trace := rfl
@[simp] theorem latchPulse_pending (p : BitVec 20) : (latchPulse p s).pending = s.pending := rfl
@[simp] theorem latchPulse_reads (p : BitVec 20) : (latchPulse p s).reads = s.reads := rfl
@[simp] theorem latchPulse_delays (p : BitVec 20) : (latchPulse p s).delays = s.delays := rfl
@[simp] theorem latchPulse_acks (p : BitVec 20) : (latchPulse p s).acks = s.acks := rfl
@[simp] theorem latchPulse_waits (p : BitVec 20) : (latchPulse p s).waits = s.waits := rfl
@[simp] theorem latchPulse_acked (p : BitVec 20) : (latchPulse p s).acked = s.acked := rfl
@[simp] theorem latchPulse_readCount (p : BitVec 20) : (latchPulse p s).readCount = s.readCount := rfl
@[simp] theorem latchPulse_draws (p : BitVec 20) : (latchPulse p s).draws = s.draws := rfl

@[simp] theorem latchDuty_initialized (d : BitVec 18) : (latchDuty d s).initialized = s.initialized := rfl
@[simp] theorem latchDuty_fault (d : BitVec 18) : (latchDuty d s).fault = s.fault := rfl
@[simp] theorem latchDuty_oldmode (d : BitVec 18) : (latchDuty d s).oldmode = s.oldmode := rfl
@[simp] theorem latchDuty_presc (d : BitVec 18) : (latchDuty d s).presc = s.presc := rfl
@[simp] theorem latchDuty_pulse (d : BitVec 18) : (latchDuty d s).pulse = s.pulse := rfl
@[simp] theorem latchDuty_duty (d : BitVec 18) : (latchDuty d s).duty = d := rfl
@[simp] theorem latchDuty_trace (d : BitVec 18) : (latchDuty d s).trace = s.trace := rfl
@[simp] theorem latchDuty_pending (d : BitVec 18) : (latchDuty d s).pending = s.pending := rfl
@[simp] theorem latchDuty_reads (d : BitVec 18) : (latchDuty d s).reads = s.reads := rfl
@[simp] theorem latchDuty_delays (d : BitVec 18) : (latchDuty d s).delays = s.delays := rfl
@[simp] theorem latchDuty_acks (d : BitVec 18) : (latchDuty d s).acks = s.acks := rfl
@[simp] theorem latchDuty_waits (d : BitVec 18) : (latchDuty d s).waits = s.waits := rfl
@[simp] theorem latchDuty_acked (d : BitVec 18) : (latchDuty d s).acked = s.acked := rfl
@[simp] theorem latchDuty_readCount (d : BitVec 18) : (latchDuty d s).readCount = s.readCount := rfl
@[simp] theorem latchDuty_draws (d : BitVec 18) : (latchDuty d s).draws = s.draws := rfl

@[simp] theorem releaseFreqLatches_initialized : (releaseFreqLatches s).initialized = s.initialized := rfl
@[simp] theorem releaseFreqLatches_fault : (releaseFreqLatches s).fault = s.fault := rfl
@[simp] theorem releaseFreqLatches_oldmode : (releaseFreqLatches s).oldmode = Config.freeOldmode s.draws := rfl
@[simp] theorem releaseFreqLatches_presc : (releaseFreqLatches s).presc = Config.freePresc s.draws := rfl
@[simp] theorem releaseFreqLatches_pulse : (releaseFreqLatches s).pulse = s.pulse := rfl
@[simp] theorem releaseFreqLatches_duty : (releaseFreqLatches s).duty = s.duty := rfl
@[simp] theorem releaseFreqLatches_trace : (releaseFreqLatches s).trace = s.trace := rfl
@[simp] theorem releaseFreqLatches_pending : (releaseFreqLatches s).pending = s.pending := rfl
@[simp] theorem releaseFreqLatches_reads : (releaseFreqLatches s).reads = s.reads := rfl
@[simp] theorem releaseFreqLatches_delays : (releaseFreqLatches s).delays = s.delays := rfl
@[simp] theorem releaseFreqLatches_acks : (releaseFreqLatches s).acks = s.acks := rfl
@[simp] theorem releaseFreqLatches_waits : (releaseFreqLatches s).waits = s.waits := rfl
@[simp] theorem releaseFreqLatches_acked : (releaseFreqLatches s).acked = s.acked := rfl
@[simp] theorem releaseFreqLatches_readCount : (releaseFreqLatches s).readCount = s.readCount := rfl
@[simp] theorem releaseFreqLatches_draws : (releaseFreqLatches s).draws = s.draws + 1 := rfl

@[simp] theorem releaseDuty_initialized : (releaseDuty s).initialized = s.initialized := rfl
@[simp] theorem releaseDuty_fault : (releaseDuty s).fault = s.fault := rfl
@[simp] theorem releaseDuty_oldmode : (releaseDuty s).oldmode = s.oldmode := rfl
@[simp] theorem releaseDuty_presc : (releaseDuty s).presc = s.presc := rfl
@[simp] theorem releaseDuty_pulse : (releaseDuty s).pulse = s.pulse := rfl
@[simp] theorem releaseDuty_duty : (releaseDuty s).duty = Config.freeDuty s.draws := rfl
@[simp] theorem releaseDuty_trace : (releaseDuty s).trace = s.trace := rfl
@[simp] theorem releaseDuty_pending : (releaseDuty s).pending = s.pending := rfl
@[simp] theorem releaseDuty_reads : (releaseDuty s).reads = s.reads := rfl
@[simp] theorem releaseDuty_delays : (releaseDuty s).delays = s.delays := rfl
@[simp] theorem releaseDuty_acks : (releaseDuty s).acks = s.acks := rfl
@[simp] theorem releaseDuty_waits : (releaseDuty s).waits = s.waits := rfl
@[simp] theorem releaseDuty_acked : (releaseDuty s).acked = s.acked := rfl
@[simp] theorem releaseDuty_readCount : (releaseDuty s).readCount = s.readCount := rfl
@[simp] theorem releaseDuty_draws : (releaseDuty s).draws = s.draws + 1 := rfl

@[simp] theorem releasePulse_initialized : (releasePulse s).initialized = s.initialized := rfl
@[simp] theorem releasePulse_fault : (releasePulse s).fault = s.fault := rfl
@[simp] theorem releasePulse_oldmode : (releasePulse s).oldmode = s.oldmode := rfl
@[simp] theorem releasePulse_presc : (releasePulse s).presc = s.presc := rfl
@[simp] theorem releasePulse_pulse : (releasePulse s).pulse = Config.freePulse s.draws := rfl
@[simp] theorem releasePulse_duty : (releasePulse s).duty = s.duty := rfl
@[simp] theorem releasePulse_trace : (releasePulse s).trace = s.trace := rfl
@[simp] theorem releasePulse_pending : (releasePulse s).pending = s.pending := rfl
@[simp] theorem releasePulse_reads : (releasePulse s).reads = s.reads := rfl
@[simp] theorem releasePulse_delays : (releasePulse s).delays = s.delays := rfl
@[simp] theorem releasePulse_acks : (releasePulse s).acks = s.acks := rfl
@[simp] theorem releasePulse_waits : (releasePulse s).waits = s.waits := rfl
@[simp] theorem releasePulse_acked : (releasePulse s).acked = s.acked := rfl
@[simp] theorem releasePulse_readCount : (releasePulse s).readCount = s.readCount := rfl
@[simp] theorem releasePulse_draws : (releasePulse s).draws = s.draws + 1 := rfl

@[simp] theorem dropInput_initialized : (dropInput s).initialized = s.initialized := rfl
@[simp] theorem dropInput_fault : (dropInput s).fault = s.fault := rfl
@[simp] theorem dropInput_oldmode : (dropInput s).oldmode = s.oldmode := rfl
@[simp] theorem dropInput_presc : (dropInput s).presc = s.presc := rfl
@[simp] theorem dropInput_pulse : (dropInput s).pulse = s.pulse := rfl
@[simp] theorem dropInput_duty : (dropInput s).duty = s.duty := rfl
@[simp] theorem dropInput_trace : (dropInput s).trace = s.trace := rfl
@[simp] theorem dropInput_pending : (dropInput s).pending = s.pending.tail := rfl
@[simp] theorem dropInput_reads : (dropInput s).reads = s.reads := rfl
@[simp] theorem dropInput_delays : (dropInput s).delays = s.delays := rfl
@[simp] theorem dropInput_acks : (dropInput s).acks = s.acks := rfl
@[simp] theorem dropInput_waits : (dropInput s).waits = s.waits := rfl
@[simp] theorem dropInput_acked : (dropInput s).acked = s.acked := rfl
@[simp] theorem dropInput_readCount : (dropInput s).readCount = s.readCount := rfl
@[simp] theorem dropInput_draws : (dropInput s).draws = s.draws := rfl

@[simp] theorem resetBlock_initialized : (resetBlock s).initialized = false := rfl
@[simp] theorem resetBlock_fault : (resetBlock s).fault = 0#3 := rfl
@[simp] theorem resetBlock_oldmode : (resetBlock s).oldmode = Config.freeOldmode s.draws := rfl
@[simp] theorem resetBlock_presc : (resetBlock s).presc = Config.freePresc s.draws := rfl
@[simp] theorem resetBlock_pulse : (resetBlock s).pulse = Config.freePulse s.draws := rfl
@[simp] theorem resetBlock_duty : (resetBlock s).duty = Config.freeDuty s.draws := rfl
@[simp] theorem resetBlock_trace : (resetBlock s).trace = [] := rfl
@[simp] theorem resetBlock_pending : (resetBlock s).pending = s.pending := rfl
@[simp] theorem resetBlock_reads : (resetBlock s).reads = s.reads := rfl
@[simp] theorem resetBlock_delays : (resetBlock s).delays = s.delays := rfl
@[simp] theorem resetBlock_acks : (resetBlock s).acks = s.acks := rfl
@[simp] theorem resetBlock_waits : (resetBlock s).waits = [] := rfl
@[simp] theorem resetBlock_acked : (resetBlock s).acked = [] := rfl
@[simp] theorem resetBlock_readCount : (resetBlock s).readCount = s.readCount := rfl
@[simp] theorem resetBlock_draws : (resetBlock s).draws = s.draws + 1 := rfl

@[simp] theorem issue_initialized (w : CmdWord) : (issue w s).initialized = s.initialized := rfl
@[simp] theorem issue_fault (w : CmdWord) : (issue w s).fault = s.fault := rfl
@[simp] theorem issue_oldmode (w : CmdWord) : (issue w s).oldmode = s.oldmode := rfl
@[simp] theorem issue_presc (w : CmdWord) : (issue w s).presc = s.presc := rfl
@[simp] theorem issue_pulse (w : CmdWord) : (issue w s).pulse = s.pulse := rfl
@[simp] theorem issue_duty (w : CmdWord) : (issue w s).duty = s.duty := rfl
@[simp] theorem issue_trace (w : CmdWord) : (issue w s).trace = s.trace := rfl
@[simp] theorem issue_pending (w : CmdWord) : (issue w s).pending = .command w :: s.pending := rfl
@[simp] theorem issue_reads (w : CmdWord) : (issue w s).reads = s.reads := rfl
@[simp] theorem issue_delays (w : CmdWord) : (issue w s).delays = s.delays := rfl
@[simp] theorem issue_acks (w : CmdWord) : (issue w s).acks = s.acks := rfl
@[simp] theorem issue_waits (w : CmdWord) : (issue w s).waits = s.waits := rfl
@[simp] theorem issue_acked (w : CmdWord) : (issue w s).acked = s.acked := rfl
@[simp] theorem issue_readCount (w : CmdWord) : (issue w s).readCount = s.readCount := rfl
@[simp] theorem issue_draws (w : CmdWord) : (issue w s).draws = s.draws := rfl

@[simp] theorem busWrite_eq_transact (dev reg v : Byte) : busWrite dev reg v s = transact (.wr dev reg v) s := rfl

@[simp] theorem withFetchWord_eq_issue (nbits w : Nat) :
    s.withFetchWord nbits w = issue (BitVec.ofNat 48 (w % 2 ^ nbits)) s := rfl

@[simp] theorem go_state : (Flow.go s).state = s := rfl

@[simp] theorem ended_state : (Flow.ended s).state = s := rfl

@[simp] theorem go_andThen (k : State → Flow) : (Flow.go s).andThen k = k s := rfl

@[simp] theorem ended_andThen (k : State → Flow) : (Flow.ended s).andThen k = .ended s := rfl

@[simp] theorem go_finally (f : State → State) : (Flow.go s).finally f = .go (f s) := rfl

@[simp] theorem ended_finally (f : State → State) : (Flow.ended s).finally f = .ended (f s) := rfl

/-- Only a read changes which byte the next read returns. -/
@[simp] theorem nextRead_markInitialized : nextRead (markInitialized s) = nextRead s := rfl
@[simp] theorem nextRead_enterFault (c : FaultCause) : nextRead (enterFault c s) = nextRead s := rfl
@[simp] theorem nextRead_transact (e : BusEvent) : nextRead (transact e s) = nextRead s := rfl
@[simp] theorem nextRead_delay (us : Nat) : nextRead (delay us s) = nextRead s := rfl
@[simp] theorem nextRead_latchPresc (p : BitVec 8) : nextRead (latchPresc p s) = nextRead s := rfl
@[simp] theorem nextRead_latchPulse (p : BitVec 20) : nextRead (latchPulse p s) = nextRead s := rfl
@[simp] theorem nextRead_latchDuty (d : BitVec 18) : nextRead (latchDuty d s) = nextRead s := rfl
@[simp] theorem nextRead_releaseFreqLatches : nextRead (releaseFreqLatches s) = nextRead s := rfl
@[simp] theorem nextRead_releaseDuty : nextRead (releaseDuty s) = nextRead s := rfl
@[simp] theorem nextRead_releasePulse : nextRead (releasePulse s) = nextRead s := rfl
@[simp] theorem nextRead_dropInput : nextRead (dropInput s) = nextRead s := rfl
@[simp] theorem nextRead_resetBlock : nextRead (resetBlock s) = nextRead s := rfl
@[simp] theorem nextRead_issue (w : CmdWord) : nextRead (issue w s) = nextRead s := rfl

@[simp] theorem nextRead_cons {m : Byte} {rest : List Byte} (h : s.reads = m :: rest) : nextRead s = m := by
  simp [nextRead, h]

end Sys2Proof.Machine
end

