-- ==== Sys2Proof/Laws/Ops.lean ====
section
/-! SUPPORT. What each shared operation can do, said once: running a command, taking a fault, the frequency sequence,
the channel load, the initialisation sequence and the servo loads. -/

namespace Sys2Proof.Machine

variable {s t : State}

@[simp] theorem notFaulted_iff : notFaulted s = true ↔ s.fault = 0#3 := by simp [notFaulted]

/-- A command of a block that is not faulted runs whole (10_state.md R25). -/
theorem runCommand_of_no_fault (body : State → Flow) (h : s.fault = 0#3) :
    runCommand body s = .next (body s).state := by
  simp [runCommand, unlessFaulted, h]

/-- A faulted block runs no command (60_exceptions.md R133). -/
theorem runCommand_of_fault (body : State → Flow) (h : s.fault ≠ 0#3) :
    runCommand body s = .fault (.blockFaulted s.fault) := by
  simp [runCommand, unlessFaulted, h]

/-- When a command answers a next state, the block was not faulted and the state is the one its body leaves. -/
theorem runCommand_next {body : State → Flow} (h : runCommand body s = .next t) :
    s.fault = 0#3 ∧ t = (body s).state := by
  by_cases hf : s.fault = 0#3
  · rw [runCommand_of_no_fault body hf] at h
    exact ⟨hf, by simpa using h.symm⟩
  · rw [runCommand_of_fault body hf] at h
    cases h

@[simp] theorem raise_state (c : FaultCause) : (raise c s).state = enterFault c s := rfl

/-- The bus sequence of SetFreqSeq emits the six events of 41_prescale.md R95. -/
theorem freqBusSeq_trace (s : State) :
    (freqBusSeq Config.hw s).trace = s.trace ++ freqTrace s.presc (nextRead s) := by
  simp [freqBusSeq, freqTrace]

/-- The wait of SetFreqSeq lasts 5000 microseconds or more (60_exceptions.md R140). -/
theorem freqBusSeq_waits (s : State) : ∃ us, 5000 ≤ us ∧ (freqBusSeq Config.hw s).waits = s.waits ++ [us] := by
  simp [freqBusSeq]

@[simp] theorem freqBusSeq_initialized (c : Config) (s : State) : (freqBusSeq c s).initialized = s.initialized := rfl
@[simp] theorem freqBusSeq_fault (c : Config) (s : State) : (freqBusSeq c s).fault = s.fault := rfl
@[simp] theorem freqBusSeq_pulse (c : Config) (s : State) : (freqBusSeq c s).pulse = s.pulse := rfl
@[simp] theorem freqBusSeq_duty (c : Config) (s : State) : (freqBusSeq c s).duty = s.duty := rfl
@[simp] theorem freqBusSeq_pending (c : Config) (s : State) : (freqBusSeq c s).pending = s.pending := rfl
@[simp] theorem freqBusSeq_reads (c : Config) (s : State) : (freqBusSeq c s).reads = s.reads.tail := rfl
@[simp] theorem freqBusSeq_readCount (c : Config) (s : State) : (freqBusSeq c s).readCount = s.readCount + 1 := rfl

/-- SetFreqSeq ends at once with FREQ_ZERO (41_prescale.md R92), ends at once with PRESCALE_RANGE (R93), or runs its
bus sequence (R95). -/
theorem setFreqSeq_cases (c : Config) (f : Nat) (s : State) :
    (f = 0 ∧ setFreqSeq c f s = raise .freqZero s) ∨
    (f ≠ 0 ∧ prescaleFits (prescale c f) = false ∧ setFreqSeq c f s = raise .prescaleRange s) ∨
    (f ≠ 0 ∧ prescaleFits (prescale c f) = true ∧
      setFreqSeq c f s = .go (freqBusSeq c (latchPresc (BitVec.ofInt 8 (prescale c f)) s))) := by
  unfold setFreqSeq
  split
  · exact .inl ⟨‹_›, rfl⟩
  · split <;> simp_all

/-- ChannelLoad drops an invalid channel (42_channel_load.md R107), ends at once with DUTY_RANGE (R108), or emits one
block write (R105). -/
theorem channelLoad_cases (c : Config) (ch on off : Nat) (s : State) :
    (c.numChannels ≤ ch ∧ channelLoad c ch on off s = .go s) ∨
    (ch < c.numChannels ∧ (on > 0xFFFF ∨ off > 0xFFFF) ∧ channelLoad c ch on off s = raise .dutyRange s) ∨
    (ch < c.numChannels ∧ on ≤ 0xFFFF ∧ off ≤ 0xFFFF ∧
      channelLoad c ch on off s = .go (transact (windowEvent c ch on off) s)) := by
  unfold channelLoad validChannel
  by_cases hch : ch < c.numChannels
  · by_cases hr : on > 0xFFFF ∨ off > 0xFFFF
    · exact .inr (.inl ⟨hch, hr, by simp only [hch, hr, decide_true, if_true]⟩)
    · exact .inr (.inr ⟨hch, by omega, by omega, by simp only [hch, hr, decide_true, if_true, if_false]⟩)
  · exact .inl ⟨by omega, by simp [hch]⟩

/-- At the default frequency SetFreqSeq runs its bus sequence, with prescale 121 (40_init.md R85). -/
theorem setFreqSeq_default (s : State) :
    setFreqSeq Config.hw Config.hw.defaultFreqHz s = .go (freqBusSeq Config.hw (latchPresc 0x79#8 s)) := rfl

/-- The channel load of a valid channel with 16-bit values emits one block write (42_channel_load.md R105). -/
theorem channelLoad_valid {c : Config} {ch on off : Nat} (s : State) (hch : ch < c.numChannels) (hon : on ≤ 0xFFFF)
    (hoff : off ≤ 0xFFFF) : channelLoad c ch on off s = .go (transact (windowEvent c ch on off) s) := by
  have hr : ¬ (on > 0xFFFF ∨ off > 0xFFFF) := by omega
  simp [channelLoad, validChannel, hch, hr]

/-- The state after the events of a list of transactions, in order. -/
def transactAll (es : List BusEvent) (s : State) : State := es.foldl (fun s e => transact e s) s

theorem transactAll_append (es es' : List BusEvent) (s : State) :
    transactAll es' (transactAll es s) = transactAll (es ++ es') s := by
  simp [transactAll]

@[simp] theorem transactAll_nil (s : State) : transactAll [] s = s := rfl

@[simp] theorem transactAll_cons (e : BusEvent) (es : List BusEvent) (s : State) :
    transactAll (e :: es) s = transactAll es (transact e s) := rfl

@[simp] theorem transactAll_trace (es : List BusEvent) (s : State) : (transactAll es s).trace = s.trace ++ es := by
  induction es generalizing s with
  | nil => simp
  | cons e es ih => simp [ih]

@[simp] theorem transactAll_initialized (es : List BusEvent) (s : State) : (transactAll es s).initialized = s.initialized := by
  induction es generalizing s with
  | nil => rfl
  | cons e es ih => simp [ih]

@[simp] theorem transactAll_fault (es : List BusEvent) (s : State) : (transactAll es s).fault = s.fault := by
  induction es generalizing s with
  | nil => rfl
  | cons e es ih => simp [ih]

@[simp] theorem transactAll_oldmode (es : List BusEvent) (s : State) : (transactAll es s).oldmode = s.oldmode := by
  induction es generalizing s with
  | nil => rfl
  | cons e es ih => simp [ih]

@[simp] theorem transactAll_presc (es : List BusEvent) (s : State) : (transactAll es s).presc = s.presc := by
  induction es generalizing s with
  | nil => rfl
  | cons e es ih => simp [ih]

@[simp] theorem transactAll_pulse (es : List BusEvent) (s : State) : (transactAll es s).pulse = s.pulse := by
  induction es generalizing s with
  | nil => rfl
  | cons e es ih => simp [ih]

@[simp] theorem transactAll_duty (es : List BusEvent) (s : State) : (transactAll es s).duty = s.duty := by
  induction es generalizing s with
  | nil => rfl
  | cons e es ih => simp [ih]

@[simp] theorem transactAll_pending (es : List BusEvent) (s : State) : (transactAll es s).pending = s.pending := by
  induction es generalizing s with
  | nil => rfl
  | cons e es ih => simp [ih]

@[simp] theorem transactAll_reads (es : List BusEvent) (s : State) : (transactAll es s).reads = s.reads := by
  induction es generalizing s with
  | nil => rfl
  | cons e es ih => simp [ih]

@[simp] theorem transactAll_delays (es : List BusEvent) (s : State) : (transactAll es s).delays = s.delays := by
  induction es generalizing s with
  | nil => rfl
  | cons e es ih => simp [ih]

@[simp] theorem transactAll_waits (es : List BusEvent) (s : State) : (transactAll es s).waits = s.waits := by
  induction es generalizing s with
  | nil => rfl
  | cons e es ih => simp [ih]

@[simp] theorem transactAll_readCount (es : List BusEvent) (s : State) : (transactAll es s).readCount = s.readCount := by
  induction es generalizing s with
  | nil => rfl
  | cons e es ih => simp [ih]

theorem transactAll_acked (es : List BusEvent) (s : State) :
    (transactAll es s).acked.length = s.acked.length + es.length := by
  induction es generalizing s with
  | nil => rfl
  | cons e es ih => simp [ih]; omega

/-- Loading the window (0, 0) into a list of valid channels emits one block write for each, in order. -/
theorem loadChannels_go (chs : List Nat) (h : ∀ ch ∈ chs, ch < 16) (s : State) :
    loadChannels Config.hw chs s = .go (transactAll (chs.map fun ch => windowEvent Config.hw ch 0 0) s) := by
  induction chs generalizing s with
  | nil => rfl
  | cons ch chs ih =>
    have hload := channelLoad_valid (c := Config.hw) (on := 0) (off := 0) s (h ch (by simp)) (by omega) (by omega)
    simp only [loadChannels, List.map_cons, transactAll_cons]
    rw [show Config.hw.initChnOn = 0 from rfl, show Config.hw.initChnOff = 0 from rfl, hload, go_andThen]
    exact ih (fun c hc => h c (by simp [hc])) _

/-- InitSeq never faults (40_init.md R85). From any state it emits the 23 events of R84 (22 transactions and one wait),
takes one read, sets INITIALIZED and leaves FAULT, PULSE, DUTY and the host's inputs alone. -/
theorem initSeq_go (s : State) :
    ∃ t, initSeq Config.hw s = .go t ∧ t.trace = s.trace ++ initTrace (nextRead s) ∧ t.initialized = true ∧
      t.fault = s.fault ∧ t.pulse = s.pulse ∧ t.duty = s.duty ∧ t.pending = s.pending ∧
      t.reads = s.reads.tail ∧ t.readCount = s.readCount + 1 ∧ t.acked.length = s.acked.length + 22 ∧
      ∃ us, 5000 ≤ us ∧ t.waits = s.waits ++ [us] := by
  have h16 : ∀ ch ∈ List.range' 1 (Config.hw.numChannels - 1), ch < 16 := by decide
  have h0 : ∀ s, channelLoad Config.hw 0 Config.hw.initCh0On Config.hw.initCh0Off s =
      .go (transact (windowEvent Config.hw 0 0 4095) s) :=
    fun s => channelLoad_valid s (by decide) (by decide) (by decide)
  have hwin : (List.range' 1 15).map (fun ch => windowEvent Config.hw ch 0 0) =
      (initTrace 0#8).drop 8 := by decide
  have hwin0 : windowEvent Config.hw 0 0 4095 = .wrBlk 0x40#8 0x06#8 0x00#8 0x00#8 0xFF#8 0x0F#8 := by decide
  refine ⟨_, by rw [initSeq, setFreqSeq_default, go_andThen, h0, go_andThen, loadChannels_go _ h16, go_andThen], ?_⟩
  obtain ⟨us, hus, hw⟩ := freqBusSeq_waits
    (latchPresc 0x79#8 (busWrite Config.hw.devAddr Config.hw.regMode1 Config.hw.mode1Init s))
  refine ⟨?_, rfl, by simp, by simp, by simp, by simp, by simp, by simp, ?_, us, hus, by simpa using hw⟩
  · simp [hwin, hwin0, freqBusSeq_trace, freqTrace, initTrace]
  · simp [hwin, initTrace, freqBusSeq]

/-- EnsureInit never faults (40_init.md R85): it does nothing on an initialised block (R86), else it runs InitSeq. -/
theorem ensureInit_go (s : State) :
    ∃ t, ensureInit Config.hw s = .go t ∧ t.initialized = true ∧ t.fault = s.fault ∧ t.pulse = s.pulse ∧
      t.duty = s.duty ∧ t.pending = s.pending ∧
      (s.initialized = true ∧ t = s ∨
        s.initialized = false ∧ initSeq Config.hw s = .go t ∧ t.trace = s.trace ++ initTrace (nextRead s)) := by
  cases hi : s.initialized with
  | true => exact ⟨s, by simp [ensureInit, hi], hi, rfl, rfl, rfl, rfl, .inl ⟨rfl, rfl⟩⟩
  | false =>
    obtain ⟨t, h, htr, hin, hf, hp, hd, hq, -⟩ := initSeq_go s
    exact ⟨t, by simp [ensureInit, hi, h], hin, hf, hp, hd, hq, .inr ⟨rfl, h, htr⟩⟩

end Sys2Proof.Machine
end

