-- ==== Sys2Proof/Laws/Exec.lean ====
section
/-! SUPPORT. What the servo loads, a whole command and a whole step can do, said once. -/

namespace Sys2Proof.Machine

variable {s t : State}

/-- The last part of a servo command drops an invalid channel, ends at once with DUTY_RANGE, or emits one block write
with on = 0 (43_servo.md R117, R119, R123). -/
theorem loadPulse_cases (ch pulse : Nat) (s : State) (h : pulseToTick Config.hw pulse < 2 ^ 18) :
    ∃ t, (loadPulse Config.hw ch pulse s).state = t ∧ t.initialized = s.initialized ∧ t.pulse = s.pulse ∧
      t.oldmode = s.oldmode ∧ t.presc = s.presc ∧ t.pending = s.pending ∧ t.reads = s.reads ∧
      (16 ≤ ch ∧ t.trace = s.trace ∧ t.fault = s.fault ∨
        ch < 16 ∧ 0xFFFF < pulseToTick Config.hw pulse ∧ t.trace = s.trace ∧ t.fault = 5#3 ∨
        ch < 16 ∧ pulseToTick Config.hw pulse ≤ 0xFFFF ∧ t.fault = s.fault ∧
          t.trace = s.trace ++ [windowEvent Config.hw ch 0 (pulseToTick Config.hw pulse)]) := by
  have hd : (BitVec.ofNat 18 (pulseToTick Config.hw pulse)).toNat = pulseToTick Config.hw pulse := by
    rw [BitVec.toNat_ofNat, Nat.mod_eq_of_lt h]
  refine ⟨_, rfl, ?_⟩
  unfold loadPulse
  simp only [latchDuty_duty, hd]
  obtain ⟨hc, e⟩ | ⟨hc, hr, e⟩ | ⟨hc, -, hr, e⟩ := channelLoad_cases Config.hw ch 0 (pulseToTick Config.hw pulse)
    (latchDuty (BitVec.ofNat 18 (pulseToTick Config.hw pulse)) s) <;> rw [e] <;> rw [Config.hw_numChannels] at hc
  · simp [hc]
  · simp [hc, raise, FaultCause.code, show 0xFFFF < pulseToTick Config.hw pulse by omega]
  · simp [hc, hr]

/-- The part of SERVO after EnsureInit does what the load of its pulse width does (43_servo.md R117). -/
theorem loadAngle_cases (ch angle : Nat) (s : State) (h : angle < 2 ^ 16) :
    ∃ t, (loadAngle Config.hw ch angle s).state = t ∧ t.initialized = s.initialized ∧
      t.oldmode = s.oldmode ∧ t.presc = s.presc ∧ t.pending = s.pending ∧ t.reads = s.reads ∧
      (16 ≤ ch ∧ t.trace = s.trace ∧ t.fault = s.fault ∨
        ch < 16 ∧ 0xFFFF < pulseToTick Config.hw (angleToPulse Config.hw angle) ∧ t.trace = s.trace ∧ t.fault = 5#3 ∨
        ch < 16 ∧ pulseToTick Config.hw (angleToPulse Config.hw angle) ≤ 0xFFFF ∧ t.fault = s.fault ∧
          t.trace = s.trace ++
            [windowEvent Config.hw ch 0 (pulseToTick Config.hw (angleToPulse Config.hw angle))]) := by
  have hp : (BitVec.ofNat 20 (angleToPulse Config.hw angle)).toNat = angleToPulse Config.hw angle := by
    rw [BitVec.toNat_ofNat, Nat.mod_eq_of_lt]
    simp [angleToPulse]; omega
  have ht : pulseToTick Config.hw (angleToPulse Config.hw angle) < 2 ^ 18 := by
    simp [pulseToTick, angleToPulse]; omega
  have hs : ∀ m : Flow, (m.finally releasePulse).state = releasePulse m.state := fun m => by cases m <;> rfl
  refine ⟨_, rfl, ?_⟩
  unfold loadAngle
  simp only [latchPulse_pulse, hp, hs]
  obtain ⟨t, e, hi, -, ho, hpr, hq, hr, hcase⟩ := loadPulse_cases ch (angleToPulse Config.hw angle)
    (latchPulse (BitVec.ofNat 20 (angleToPulse Config.hw angle)) s) ht
  rw [e]
  simpa [hi, ho, hpr, hq, hr] using hcase

/-- The duty tick of every SERVO_PULSE operand fits in 16 bits (43_servo.md R122). -/
theorem pulseToTick_operand (p : Operand) : pulseToTick Config.hw p.toNat ≤ 13421 := by
  have := p.isLt
  simp [pulseToTick]; omega

/-- What one command adds to the trace, with what it does to INITIALIZED and FAULT: nothing, perhaps with a fault; one
block write; one frequency sequence; or, on a block not initialised, InitSeq and then nothing, perhaps with a fault, or
one block write. -/
def Effect (s t : State) : Prop :=
  s.fault = 0#3 ∧ t.pending = s.pending ∧
    (t.initialized = s.initialized ∧
        (t.trace = s.trace ∧ t.fault.toNat ≤ 5 ∨
          t.fault = 0#3 ∧ (∃ n on off, n < 16 ∧ t.trace = s.trace ++ [windowEvent Config.hw n on off]) ∨
          t.fault = 0#3 ∧ ∃ p m, t.trace = s.trace ++ freqTrace p m) ∨
      s.initialized = false ∧ t.initialized = true ∧
        ∃ m, (t.trace = s.trace ++ initTrace m ∧ t.fault.toNat ≤ 5 ∨
          t.fault = 0#3 ∧ ∃ n on off, n < 16 ∧
            t.trace = s.trace ++ initTrace m ++ [windowEvent Config.hw n on off]))

/-- A load after EnsureInit has the effect of a whole command. -/
theorem effect_of_ensureInit_load {u : State} {n off : Nat} {P Q R : Prop} (hf : s.fault = 0#3)
    (hu : u.initialized = true ∧ u.fault = s.fault ∧ u.pending = s.pending ∧
      (s.initialized = true ∧ u = s ∨ s.initialized = false ∧ u.trace = s.trace ++ initTrace (nextRead s)))
    (ht : t.initialized = u.initialized ∧ t.pending = u.pending ∧
      (P ∧ t.trace = u.trace ∧ t.fault = u.fault ∨ n < 16 ∧ Q ∧ t.trace = u.trace ∧ t.fault = 5#3 ∨
        n < 16 ∧ R ∧ t.fault = u.fault ∧ t.trace = u.trace ++ [windowEvent Config.hw n 0 off])) : Effect s t := by
  obtain ⟨hi, hft, hq, hc⟩ := hu
  obtain ⟨hi', hq', hc'⟩ := ht
  refine ⟨hf, hq'.trans hq, ?_⟩
  obtain ⟨-, rfl⟩ | ⟨h1, htr⟩ := hc
  · refine .inl ⟨hi', ?_⟩
    obtain ⟨-, h2, h3⟩ | ⟨-, -, h2, h3⟩ | ⟨hn, -, h3, h2⟩ := hc'
    · exact .inl ⟨h2, by simp [h3, hf]⟩
    · exact .inl ⟨h2, by simp [h3]⟩
    · exact .inr (.inl ⟨h3.trans hf, n, 0, off, hn, h2⟩)
  · refine .inr ⟨h1, hi'.trans hi, nextRead s, ?_⟩
    obtain ⟨-, h2, h3⟩ | ⟨-, -, h2, h3⟩ | ⟨hn, -, h3, h2⟩ := hc'
    · exact .inl ⟨h2.trans htr, by simp [h3, hft, hf]⟩
    · exact .inl ⟨h2.trans htr, by simp [h3]⟩
    · exact .inr ⟨(h3.trans hft).trans hf, n, 0, off, hn, by rw [h2, htr]⟩

/-- A command that leaves FAULT and INITIALIZED alone and adds nothing has the effect of a command. -/
theorem effect_refl (hf : s.fault = 0#3) : Effect s s := ⟨hf, rfl, .inl ⟨rfl, .inl ⟨rfl, by simp [hf]⟩⟩⟩

/-- Taking a fault has the effect of a command. -/
theorem effect_raise (c : FaultCause) (hf : s.fault = 0#3) : Effect s (enterFault c s) :=
  ⟨hf, rfl, .inl ⟨rfl, .inl ⟨rfl, by cases c <;> simp [FaultCause.code]⟩⟩⟩

/-- Every command has one of the effects listed. -/
theorem exec_effect {i : Instr} (h : exec i s = .next t) : Effect s t := by
  cases i with
  | init =>
    obtain ⟨hf, rfl⟩ := runCommand_next h
    obtain ⟨t, e, hi, hft, -, -, hq, hc⟩ := ensureInit_go s
    rw [e, go_state]
    obtain ⟨-, rfl⟩ | ⟨h1, -, htr⟩ := hc
    · exact effect_refl hf
    · exact ⟨hf, hq, .inr ⟨h1, hi, nextRead s, .inl ⟨htr, by simp [hft, hf]⟩⟩⟩
  | setFreq freq =>
    obtain ⟨hf, rfl⟩ := runCommand_next h
    obtain ⟨-, e⟩ | ⟨-, -, e⟩ | ⟨-, -, e⟩ := setFreqSeq_cases Config.hw (operandVal freq) s <;> rw [e]
    · exact effect_raise _ hf
    · exact effect_raise _ hf
    · exact ⟨hf, by simp, .inl ⟨by simp, .inr (.inr ⟨by simp [hf], _, _, freqBusSeq_trace _⟩)⟩⟩
  | setPwm ch on off =>
    obtain ⟨hf, rfl⟩ := runCommand_next h
    obtain ⟨-, e⟩ | ⟨-, -, e⟩ | ⟨hc, -, -, e⟩ :=
      channelLoad_cases Config.hw (channelVal ch) (operandVal on) (operandVal off) s <;> rw [e]
    · exact effect_refl hf
    · exact effect_raise _ hf
    · rw [Config.hw_numChannels] at hc
      exact ⟨hf, rfl, .inl ⟨rfl, .inr (.inl ⟨hf, channelVal ch, operandVal on, operandVal off, hc, by simp⟩)⟩⟩
  | servo ch angle =>
    obtain ⟨hf, rfl⟩ := runCommand_next h
    obtain ⟨u, e, hi, hft, -, -, hq, hc⟩ := ensureInit_go s
    obtain ⟨t, e', hi', -, -, hq', -, hc'⟩ := loadAngle_cases (channelVal ch) (operandVal angle) u angle.isLt
    rw [servoFlow, e, go_andThen, e']
    exact effect_of_ensureInit_load hf ⟨hi, hft, hq, hc.imp id fun h => ⟨h.1, h.2.2⟩⟩ ⟨hi', hq', hc'⟩
  | servoPulse ch pulse =>
    obtain ⟨hf, rfl⟩ := runCommand_next h
    obtain ⟨u, e, hi, hft, -, -, hq, hc⟩ := ensureInit_go s
    have hd := pulseToTick_operand pulse
    obtain ⟨t, e', hi', -, -, -, hq', -, hc'⟩ := loadPulse_cases (channelVal ch) (operandVal pulse) u
      (by unfold operandVal; omega)
    rw [servoPulseFlow, e, go_andThen, e']
    exact effect_of_ensureInit_load hf ⟨hi, hft, hq, hc.imp id fun h => ⟨h.1, h.2.2⟩⟩ ⟨hi', hq', hc'⟩

/-- A step that answers a next state waits (no input, no fault), resets the block, rejects a word by its decode
fault, or runs a command. -/
theorem step_next_cases (h : step s = .next t) :
    (s.pending = [] ∧ s.fault = 0#3 ∧ t = s) ∨
    (∃ rest, s.pending = .reset :: rest ∧ t = resetBlock (dropInput s)) ∨
    (∃ w rest d, s.pending = .command w :: rest ∧ decode w = .error d ∧ s.fault = 0#3 ∧
      t = enterFault (decodeCause d) (dropInput s)) ∨
    (∃ w rest i, s.pending = .command w :: rest ∧ decode w = .ok i ∧ exec i (dropInput s) = .next t) := by
  unfold step nextInput at h
  cases hp : s.pending with
  | nil =>
    simp only [hp, List.head?_nil, idle, unlessFaulted] at h
    split at h
    · rename_i hf
      exact .inl ⟨rfl, notFaulted_iff.1 hf, by simpa using h.symm⟩
    · cases h
  | cons x rest =>
    cases x with
    | reset =>
      simp only [hp, List.head?_cons] at h
      exact .inr (.inl ⟨rest, rfl, by simpa using h.symm⟩)
    | command w =>
      simp only [hp, List.head?_cons, execWord] at h
      cases hd : decode w with
      | error d =>
        simp only [hd, rejectWord] at h
        obtain ⟨hf, rfl⟩ := runCommand_next h
        exact .inr (.inr (.inl ⟨w, rest, d, rfl, hd, by simpa using hf, rfl⟩))
      | ok i =>
        simp only [hd] at h
        exact .inr (.inr (.inr ⟨w, rest, i, rfl, hd, h⟩))

/-- A command word that decodes is run by the step (10_state.md R27). -/
theorem step_command {w : CmdWord} {rest : List HostInput} {i : Instr} (hp : s.pending = .command w :: rest)
    (hd : decode w = .ok i) : step s = exec i (dropInput s) := by
  simp [step, nextInput, hp, execWord, hd]

/-- A command word that does not decode raises its decode fault and does nothing else (30_encoding.md R65). -/
theorem step_reject {w : CmdWord} {rest : List HostInput} {d : DecodeFault} (hp : s.pending = .command w :: rest)
    (hd : decode w = .error d) (hf : s.fault = 0#3) :
    step s = .next (enterFault (decodeCause d) (dropInput s)) := by
  simp [step, nextInput, hp, execWord, hd, rejectWord, runCommand_of_no_fault _ (s := dropInput s) (by simpa using hf)]

end Sys2Proof.Machine
end

