-- ==== Sys2Proof/Laws/PerInstr.lean ====
section
/-! SUPPORT. Statements made per instruction: every command is encoded with well-formed fields and the opcode of its own
row (30_encoding.md R63). -/

namespace Sys2Proof.Laws.EncodesWellFormed

/-- The command's fields are well formed: a legal opcode and every must-be-0 field 0 (30_encoding.md R63, R67). -/
def Statement (i : Instr) : Prop := i.wellFormed = true

theorem init : Statement .init := rfl

theorem setFreq (freq : Operand) : Statement (.setFreq freq) := by
  simp [Statement, Instr.wellFormed, Instr.fields, CmdFields.wellFormed, CmdFields.legalOp, CmdFields.reservedZero]

theorem setPwm (ch : Byte) (on off : Operand) : Statement (.setPwm ch on off) := by
  simp [Statement, Instr.wellFormed, Instr.fields, CmdFields.wellFormed, CmdFields.legalOp, CmdFields.reservedZero]

theorem servo (ch : Byte) (angle : Operand) : Statement (.servo ch angle) := by
  simp [Statement, Instr.wellFormed, Instr.fields, CmdFields.wellFormed, CmdFields.legalOp, CmdFields.reservedZero]

theorem servoPulse (ch : Byte) (pulse : Operand) : Statement (.servoPulse ch pulse) := by
  simp [Statement, Instr.wellFormed, Instr.fields, CmdFields.wellFormed, CmdFields.legalOp, CmdFields.reservedZero]

end Sys2Proof.Laws.EncodesWellFormed
end

