-- ==== Sys2Proof/Laws/Run.lean ====
section
/-! SUPPORT. What one step adds to a run and when a run has ended successfully, said once. -/

namespace Sys2Proof.Machine

@[simp] theorem Run.start_state (s : State) : (Run.start s).state = s := rfl

@[simp] theorem Run.start_last (s : State) : (Run.start s).last = none := rfl

@[simp] theorem Run.steps_zero (r : Run) : r.steps 0 = some r := rfl

@[simp] theorem Run.steps_succ (n : Nat) (r : Run) : r.steps (n + 1) = r.next.bind (Run.steps n) := rfl

/-- A step of the block is a step of the run. -/
theorem Run.next_of_step {r : Run} {t : State} (h : step r.state = .next t) :
    r.next = some ⟨t, (commandResult r.state t).or r.last⟩ := by
  simp [Run.next, h]

/-- A block that takes no step ends the run there. -/
theorem Run.next_of_fault {r : Run} {f : Fault} (h : step r.state = .fault f) : r.next = none := by
  simp [Run.next, h]

/-- A step that runs a command word leaves its result in the run. -/
theorem commandResult_command {s t : State} {w : CmdWord} {rest : List HostInput} (h : s.pending = .command w :: rest) :
    commandResult s t = some (if notFaulted t then .done else .faulted t.fault) := by
  simp [commandResult, nextInput, h]

/-- A reset has no command result. -/
theorem commandResult_reset {s t : State} {rest : List HostInput} (h : s.pending = .reset :: rest) :
    commandResult s t = none := by
  simp [commandResult, nextInput, h]

/-- The host has issued its last command when no command word is among its inputs. -/
theorem lastIssued_iff {s : State} : s.lastIssued = true ↔ ∀ w, HostInput.command w ∉ s.pending := by
  simp only [State.lastIssued, Bool.not_eq_true', List.any_eq_false]
  refine ⟨fun h w hw => h _ hw rfl, fun h x hx => ?_⟩
  cases x with
  | command w => exact absurd hx (h w)
  | reset => simp [HostInput.isCommand]

/-- The three conditions of a successful end (70_reset_and_hazards.md R162). -/
theorem Run.endedWell_iff {r : Run} :
    r.endedWell = true ↔ r.state.lastIssued = true ∧ r.last = some .done ∧ r.state.fault = 0#3 := by
  simp [Run.endedWell, notFaulted_iff, and_assoc]

end Sys2Proof.Machine
end

