-- ==== Sys2Proof/Laws/Session.lean ====
section
/-! SUPPORT. The small lemmas of the words claims are stated in: the traces of the spec, the events allowed, how often
InitSeq is begun in a trace, and the byte a trace last sent to a register. -/

namespace Sys2Proof.Machine

/-- A block write of a valid channel is one the block may emit (20_memory.md R43). -/
theorem windowEvent_allowed {n on off : Nat} (h : n < 16) : (windowEvent Config.hw n on off).allowed = true := by
  have key : ∀ n < 16, 6 ≤ (chanBase Config.hw n).toNat ∧ (chanBase Config.hw n).toNat ≤ 66 ∧
      ((chanBase Config.hw n).toNat - 6) % 4 = 0 := by decide
  simpa [windowEvent, BusEvent.allowed] using key n h

theorem freqTrace_allowed (p m : Byte) : ∀ e ∈ freqTrace p m, e.allowed = true := by
  simp [freqTrace, BusEvent.allowed]

theorem initTrace_allowed (m : Byte) : ∀ e ∈ initTrace m, e.allowed = true := by
  simp [initTrace, clearEvent, BusEvent.allowed]

/-- Starts of InitSeq in a trace followed by another: those of both, and one more if the last event of the first and
the first of the second make one. -/
theorem initStarts_append (xs ys : List BusEvent) :
    initStarts (xs ++ ys) = initStarts xs + initStarts ys +
      (match xs.getLast? with
        | some e => if startsInit e ys.head? then 1 else 0
        | none => 0) := by
  induction xs with
  | nil => simp [initStarts]
  | cons x xs ih =>
    cases xs with
    | nil =>
      have hx : startsInit x none = false := by cases x <;> rfl
      simp [initStarts, hx]; omega
    | cons y xs =>
      simp only [List.cons_append, initStarts, List.head?_cons] at ih ⊢
      rw [ih]
      simp only [List.getLast?_cons_cons]
      generalize (match (y :: xs).getLast? with
        | some e => if startsInit e ys.head? = true then 1 else 0
        | none => 0) = q at *
      simp only [Nat.add_assoc]
      congr

/-- Only the write of 0 to MODE1 can start InitSeq. -/
theorem startsInit_of_ne {e : BusEvent} {next : Option BusEvent} (h : e ≠ .wr 0x40#8 0x00#8 0x00#8) :
    startsInit e next = false := by
  cases e with
  | wr dev reg v =>
    rcases next with _ | ⟨_ | _ | _ | _⟩ <;> simp [startsInit]
    intro h1 h2 h3
    exact h (by rw [h1, h2, h3])
  | _ => rfl

/-- After a trace that does not end with the write of 0 to MODE1 no start straddles the two. -/
theorem initStarts_append_settled {xs ys : List BusEvent} (h : xs.getLast? ≠ some (.wr 0x40#8 0x00#8 0x00#8)) :
    initStarts (xs ++ ys) = initStarts xs + initStarts ys := by
  rw [initStarts_append]
  cases hx : xs.getLast? with
  | none => simp
  | some e => simp [startsInit_of_ne (e := e) (fun he => h (by rw [hx, he]))]

theorem initStarts_freqTrace (p m : Byte) : initStarts (freqTrace p m) = 0 := by
  simp [freqTrace, initStarts, startsInit]

theorem initStarts_initTrace (m : Byte) : initStarts (initTrace m) = 1 := by
  simp [initTrace, clearEvent, initStarts, startsInit]

theorem initStarts_windowEvent (n on off : Nat) : initStarts [windowEvent Config.hw n on off] = 0 := by
  simp [windowEvent, initStarts, startsInit]

theorem freqTrace_settled (p m : Byte) : (freqTrace p m).getLast? ≠ some (.wr 0x40#8 0x00#8 0x00#8) := by
  simp [freqTrace]

theorem initTrace_settled (m : Byte) : (initTrace m).getLast? ≠ some (.wr 0x40#8 0x00#8 0x00#8) := by
  simp [initTrace, clearEvent]

theorem windowEvent_settled (n on off : Nat) :
    [windowEvent Config.hw n on off].getLast? ≠ some (.wr 0x40#8 0x00#8 0x00#8) := by
  simp [windowEvent]

/-- The last event of one trace after another is the last of the second, or of the first if the second is empty. -/
theorem getLast?_append_ne {xs ys : List BusEvent} {e : BusEvent} (h : xs.getLast? ≠ some e)
    (h' : ys.getLast? ≠ some e) : (xs ++ ys).getLast? ≠ some e := by
  cases ys with
  | nil => simpa using h
  | cons y ys =>
    rw [List.getLast?_append]
    rw [List.getLast?_eq_getLast_of_ne_nil (by simp)] at h' ⊢
    simpa using h'

theorem lookup_append_of_not_mem {α β : Type} [BEq α] [LawfulBEq α] (xs ys : List (α × β)) (a : α)
    (h : ∀ b, (a, b) ∉ xs) : (xs ++ ys).lookup a = ys.lookup a := by
  induction xs with
  | nil => rfl
  | cons x xs ih =>
    obtain ⟨k, v⟩ := x
    have hk : (a == k) = false := by
      rw [beq_eq_false_iff_ne]
      rintro rfl
      exact h v (by simp)
    simp only [List.cons_append, List.lookup_cons, hk]
    exact ih fun b hb => h b (by simp [hb])

/-- Events that send nothing to a register leave the byte last sent to it. -/
theorem lastWritten_append {xs ys : List BusEvent} {dev reg : Byte}
    (h : ∀ e ∈ ys, ∀ v, ((dev, reg), v) ∉ e.stores) : lastWritten (xs ++ ys) dev reg = lastWritten xs dev reg := by
  unfold lastWritten
  rw [List.flatMap_append, List.reverse_append, lookup_append_of_not_mem]
  intro b hb
  simp only [List.mem_reverse, List.mem_flatMap] at hb
  obtain ⟨e, he, hb⟩ := hb
  exact h e he b hb

end Sys2Proof.Machine
end

