-- ==== Sys2Proof/Tests/Slice0.lean ====
section
/-! SUPPORT. Tests of the model, each expected result taken from the spec's tables, and for every statement with
hypotheses a witness that meets them together. -/

namespace Sys2Proof.Tests

open Sys2Proof.Machine

/-- The state a step answers, if it answers one. -/
def nextState : Host.Outcome State Fault Refusal → Option State
  | .next s => some s
  | .fault _ => none
  | .refused _ => none

/-- What a step leaves to see: trace, INITIALIZED, FAULT. -/
def seen (o : Host.Outcome State Fault Refusal) : Option (List BusEvent × Bool × BitVec 3) :=
  (nextState o).map State.observation

/-- A block just reset, or initialised, whose MODE1 reads return m. -/
def block (initialized : Bool) (m : Byte) : State := { State.reset with initialized := initialized, reads := [m] }

/-- A block with one command word to run. -/
def given (s : State) (w : CmdWord) : State := { s with pending := [.command w] }

/-! ## Well-formedness: an ill-formed term for each check (30_encoding.md R63) -/

theorem test_wf_refuses_opcode_0 : CmdFields.wellFormed ⟨0x00#8, 0#8, 0#16, 0#16⟩ = false := by decide
theorem test_wf_refuses_opcode_6 : CmdFields.wellFormed ⟨0x06#8, 0#8, 0#16, 0#16⟩ = false := by decide
theorem test_wf_refuses_init_ch : CmdFields.wellFormed ⟨0x01#8, 1#8, 0#16, 0#16⟩ = false := by decide
theorem test_wf_refuses_init_a : CmdFields.wellFormed ⟨0x01#8, 0#8, 1#16, 0#16⟩ = false := by decide
theorem test_wf_refuses_init_b : CmdFields.wellFormed ⟨0x01#8, 0#8, 0#16, 1#16⟩ = false := by decide
theorem test_wf_refuses_setFreq_ch : CmdFields.wellFormed ⟨0x02#8, 1#8, 0#16, 50#16⟩ = false := by decide
theorem test_wf_refuses_setFreq_a : CmdFields.wellFormed ⟨0x02#8, 0#8, 1#16, 50#16⟩ = false := by decide
theorem test_wf_refuses_servo_a : CmdFields.wellFormed ⟨0x04#8, 0#8, 1#16, 0#16⟩ = false := by decide
theorem test_wf_refuses_servoPulse_a : CmdFields.wellFormed ⟨0x05#8, 0#8, 1#16, 0#16⟩ = false := by decide
theorem test_wf_takes_setPwm : CmdFields.wellFormed ⟨0x03#8, 255#8, 0xFFFF#16, 0xFFFF#16⟩ = true := by decide

/-- The declared ranges refuse a channel, an angle, a pulse and a frequency outside them (R9, R94, R117, R118). -/
theorem test_declared_ranges :
    Instr.inDeclaredRange (.setPwm 16#8 0#16 0#16) = false ∧ Instr.inDeclaredRange (.servo 0#8 181#16) = false ∧
    Instr.inDeclaredRange (.servo 16#8 0#16) = false ∧ Instr.inDeclaredRange (.servoPulse 0#8 499#16) = false ∧
    Instr.inDeclaredRange (.servoPulse 0#8 2501#16) = false ∧ Instr.inDeclaredRange (.servoPulse 16#8 500#16) = false ∧
    Instr.inDeclaredRange (.setFreq 23#16) = false ∧ Instr.inDeclaredRange (.setFreq 6104#16) = false := by decide

/-! ## Decoding: words written out from 30_encoding.md R61, R63, field by field -/

theorem test_decode_init :
    decode 0b00000001_00000000_0000000000000000_0000000000000000#48 = .ok .init := by decide
theorem test_decode_setFreq :
    decode 0b00000010_00000000_0000000000000000_0000000000111100#48 = .ok (.setFreq 60#16) := by decide
theorem test_decode_setPwm :
    decode 0b00000011_00000111_0001001000110100_1010101111001101#48 = .ok (.setPwm 7#8 0x1234#16 0xABCD#16) := by
  decide
theorem test_decode_servo :
    decode 0b00000100_00010100_0000000000000000_0000000001011010#48 = .ok (.servo 20#8 90#16) := by decide
theorem test_decode_servoPulse :
    decode 0b00000101_00000011_0000000000000000_0000010111011100#48 = .ok (.servoPulse 3#8 1500#16) := by decide

/-- The refused words of 95_test_vectors.md V-D and V-F. -/
theorem test_decode_refuses :
    decode 0x000000000000#48 = .error .illegalOpcode ∧ decode 0x060000000000#48 = .error .illegalOpcode ∧
    decode 0xFF0000000000#48 = .error .illegalOpcode ∧ decode 0x010100000000#48 = .error .reservedField ∧
    decode 0x010000010000#48 = .error .reservedField ∧ decode 0x010000000001#48 = .error .reservedField ∧
    decode 0x020100000032#48 = .error .reservedField ∧ decode 0x020000010032#48 = .error .reservedField ∧
    decode 0x040000010000#48 = .error .reservedField ∧ decode 0x050000010000#48 = .error .reservedField ∧
    decode 0x070000000001#48 = .error .illegalOpcode ∧ decode 0x020100000000#48 = .error .reservedField := by decide

/-- The match words of spec/opcode_table.json as the host numbers them. -/
theorem test_decodeTableWord :
    decodeTableWord 48 0x010000000000 = some .init ∧ decodeTableWord 48 0x020000000000 = some (.setFreq 0#16) ∧
    decodeTableWord 48 0x030000000000 = some (.setPwm 0#8 0#16 0#16) ∧
    decodeTableWord 48 0x040000000000 = some (.servo 0#8 0#16) ∧
    decodeTableWord 48 0x050000000000 = some (.servoPulse 0#8 0#16) ∧ decodeTableWord 48 0x060000000000 = none := by
  decide

/-- The first step after reset runs the word placed for it: one word of each row of spec/opcode_table.json. -/
theorem test_withFetchWord :
    ∀ w ∈ [0x010000000000, 0x020000000000, 0x030000000000, 0x040000000000, 0x050000000000],
      ((nextState (step (State.reset.withFetchWord 48 w))).map State.fault).isSome = true := by decide

/-- The assembler reads hexadecimal operands and refuses one that does not fit (30_encoding.md R69). -/
theorem test_assemble :
    assembleWord "SET_PWM 7, 0x1234, 0xABCD".toList = some 0x03071234ABCD#48 ∧
    assembleWord "SERVO 256, 90".toList = none ∧ assembleWord "SET_FREQ 65536".toList = none ∧
    assembleWord "SET_FREQ".toList = none ∧ assembleWord "RESET".toList = none := by decide

/-! ## One step each, from 95_test_vectors.md -/

/-- V-I: INIT from reset emits the 23 events of R84. -/
theorem test_init_from_reset :
    seen (step (given (block false 0x00#8) 0x010000000000#48)) = some (initTrace 0x00#8, true, 0#3) := by decide

/-- V-I: INIT again emits nothing. -/
theorem test_init_again :
    seen (step (given (block true 0x00#8) 0x010000000000#48)) = some ([], true, 0#3) := by decide

/-- V-S: SET_FREQ 60 with m = 0x5A. -/
theorem test_setFreq_60 :
    seen (step (given (block false 0x5A#8) 0x02000000003C#48)) =
      some ([.rd 0x40#8 0x00#8 0x5A#8, .wr 0x40#8 0x00#8 0x5A#8, .wr 0x40#8 0xFE#8 0x64#8, .wr 0x40#8 0x00#8 0x5A#8,
        .dly 5000, .wr 0x40#8 0x00#8 0xFB#8], false, 0#3) := by decide

/-- V-S: SET_FREQ 0, 23 and 6104 fault before any event. -/
theorem test_setFreq_faults :
    seen (step (given (block true 0x00#8) 0x020000000000#48)) = some ([], true, 3#3) ∧
    seen (step (given (block true 0x00#8) 0x020000000017#48)) = some ([], true, 4#3) ∧
    seen (step (given (block true 0x00#8) 0x0200000017D8#48)) = some ([], true, 4#3) := by decide

/-- V-C: SET_PWM 7, 0x1234, 0xABCD on a block not initialised. -/
theorem test_setPwm_7 :
    seen (step (given (block false 0x00#8) 0x03071234ABCD#48)) =
      some ([.wrBlk 0x40#8 0x22#8 0x34#8 0x12#8 0xCD#8 0xAB#8], false, 0#3) := by decide

/-- V-C: an invalid channel is dropped, whatever its window. -/
theorem test_setPwm_255 :
    seen (step (given (block true 0x00#8) 0x03FFFFFFFFFF#48)) = some ([], true, 0#3) := by decide

/-- V-A: SERVO 3, 31939, the widest duty tick that fits. -/
theorem test_servo_31939 :
    seen (step (given (block true 0x00#8) 0x040300007CC3#48)) =
      some ([.wrBlk 0x40#8 0x12#8 0x00#8 0x00#8 0xFD#8 0xFF#8], true, 0#3) := by decide

/-- V-I: SERVO 2, 31940 on a block not initialised runs InitSeq, then faults. -/
theorem test_servo_31940_lazy :
    seen (step (given (block false 0x00#8) 0x040200007CC4#48)) = some (initTrace 0x00#8, true, 5#3) := by decide

/-- V-U: SERVO_PULSE 7, 65535. -/
theorem test_servoPulse_65535 :
    seen (step (given (block true 0x00#8) 0x05070000FFFF#48)) =
      some ([.wrBlk 0x40#8 0x22#8 0x00#8 0x00#8 0x6D#8 0x34#8], true, 0#3) := by decide

/-- V-U: SERVO_PULSE 200, 1500 loads nothing, and initialises a block that is not (43_servo.md R118). -/
theorem test_servoPulse_invalid :
    seen (step (given (block true 0x00#8) 0x05C8000005DC#48)) = some ([], true, 0#3) ∧
    seen (step (given (block false 0x11#8) 0x05C8000005DC#48)) = some (initTrace 0x11#8, true, 0#3) := by decide

/-- V-F: a faulted block has no step for a command, and a reset frees it (60_exceptions.md R133, R136). -/
theorem test_faulted_block :
    step { given State.reset 0x010000000000#48 with fault := 5#3 } = .fault (.blockFaulted 5#3) ∧
    seen (step { State.reset with fault := 5#3, initialized := true, trace := [.dly 5000], pending := [.reset] }) =
      some ([], false, 0#3) := ⟨rfl, by decide⟩

/-- 90_conflicts.md C1: the prescale truncates where rounding would differ (95_test_vectors.md V-P). -/
theorem test_prescale_truncates :
    prescale Config.hw 40 = 151 ∧ prescale Config.hw 60 = 100 ∧ prescale Config.hw 200 = 29 ∧
    prescale Config.hw 1221 = 3 ∧ prescale Config.hw 1526 = 2 ∧ prescale Config.hw 1600 = 2 := by decide

/-! ## Witnesses: a state and operands that meet the hypotheses of each statement together -/

/-- An initialised block with the trace of its InitSeq. -/
def session : State := { block true 0x00#8 with trace := initTrace 0x00#8 }

theorem witness_EncodeOfDecodeIsTheWord : decode 0x030F01000800#48 = .ok (.setPwm 15#8 256#16 2048#16) := by decide

theorem witness_MatchAndMaskSelectTheCommand :
    ∃ w : CmdWord, ∃ r ∈ opTable, r.selects w = true := ⟨0x010000000000#48, opTable.head (by decide), by decide, by decide⟩

theorem witness_IllegalOpcodeRaisesItsFault :
    ∀ w ∈ [0x000000000000#48, 0x060000000000#48, 0xFF0000000000#48],
      (given State.reset w).fault = 0#3 ∧ (given State.reset w).pending = .command w :: [] ∧
      ((w.extractLsb' 40 8).toNat = 0 ∨ 6 ≤ (w.extractLsb' 40 8).toNat) := by
  simp [given, State.reset]

theorem witness_ReservedFieldRaisesItsFault :
    ∀ w ∈ [0x010100000000#48, 0x01FF00000000#48, 0x010000010000#48, 0x010000000001#48, 0x020100000032#48,
        0x02000001FFFF#48, 0x04FF80000000#48, 0x050000010000#48],
      (given State.reset w).fault = 0#3 ∧ (given State.reset w).pending = .command w :: [] ∧
      (w.extractLsb' 40 8 = 0x01#8 ∧
          (w.extractLsb' 32 8 ≠ 0#8 ∨ w.extractLsb' 16 16 ≠ 0#16 ∨ w.extractLsb' 0 16 ≠ 0#16) ∨
        w.extractLsb' 40 8 = 0x02#8 ∧ (w.extractLsb' 32 8 ≠ 0#8 ∨ w.extractLsb' 16 16 ≠ 0#16) ∨
        (w.extractLsb' 40 8 = 0x04#8 ∨ w.extractLsb' 40 8 = 0x05#8) ∧ w.extractLsb' 16 16 ≠ 0#16) := by
  simp [given, State.reset]

theorem witness_StepRunsTheDecodedCommand :
    (given State.reset 0x0503000005DC#48).pending = .command 0x0503000005DC#48 :: [] ∧
      decode 0x0503000005DC#48 = .ok (.servoPulse 3#8 1500#16) := by decide

theorem witness_PlacedWordIsRunNext : decode 0x0400000000B4#48 = .ok (.servo 0#8 180#16) := by decide

theorem witness_BlockWithNoInputWaits : State.reset.fault = 0#3 ∧ State.reset.pending = [] := by decide

theorem witness_FaultedBlockTakesNoStep :
    ∀ code ∈ [1#3, 5#3, 6#3, 7#3],
      ({ State.reset with fault := code }).fault ≠ 0#3 ∧
      nextInput { given State.reset 0x010000000000#48 with fault := code } ≠ some .reset := by decide

theorem witness_ResetGivesAFreshBlock :
    ({ session with fault := 5#3, pending := [.reset] }).pending = .reset :: [] := rfl

/-- One word for each code the table gives, 0 to 5. -/
theorem witness_EveryWordRaisesItsFaultAndNoOther :
    expectedFault 0x0200000017D7#48 = 0#3 ∧ expectedFault 0x060000000000#48 = 1#3 ∧
    expectedFault 0x020100000000#48 = 2#3 ∧ expectedFault 0x020000000000#48 = 3#3 ∧
    expectedFault 0x020000000017#48 = 4#3 ∧ expectedFault 0x0200000017D8#48 = 4#3 ∧
    expectedFault 0x040F00007CC4#48 = 5#3 ∧ expectedFault 0x041000007CC4#48 = 0#3 ∧
    expectedFault 0x040F00007CC3#48 = 0#3 ∧
    (given State.reset 0x040F00007CC4#48).fault = 0#3 ∧
    (given State.reset 0x040F00007CC4#48).pending = .command 0x040F00007CC4#48 :: [] := by decide

/-- The clause for a step that runs no command word: waiting, and a reset. -/
theorem witness_EveryWordRaisesItsFaultAndNoOther_other :
    (∃ t, step State.reset = .next t ∧ nextInput State.reset = none) ∧
    ∃ t, step { State.reset with fault := 5#3, pending := [.reset] } = .next t ∧
      nextInput { State.reset with fault := 5#3, pending := [.reset] } = some .reset :=
  ⟨⟨_, rfl, rfl⟩, _, rfl, rfl⟩

theorem witness_FaultIsWrittenOnEntryOnly :
    ∃ s t, step s = .next t ∧ t.fault ≠ s.fault :=
  ⟨given State.reset 0x020000000000#48, { State.reset with fault := 3#3 }, rfl, by decide⟩

theorem witness_InitializedIsSetByInitSeqOnly :
    ∃ s t, step s = .next t ∧ t.initialized ≠ s.initialized :=
  ⟨given State.reset 0x010000000000#48, _, rfl, by decide⟩

theorem witness_StepTouchesOnlyTheBlocksRegisters :
    ∃ s t, step s = .next t ∧ nextInput s ≠ some .reset :=
  ⟨given (block true 0x00#8) 0x030F01000800#48, _, rfl, by decide⟩

theorem witness_TransportOutcomesNeverMatter :
    ∃ s s' t : State, s ≠ s' ∧ s.forgetTransport = s'.forgetTransport ∧ step s = .next t :=
  ⟨{ given (block true 0x00#8) 0x030F01000800#48 with acks := [true] },
    { given (block true 0x00#8) 0x030F01000800#48 with acks := [false], delays := [7] }, _, by decide, by decide, rfl⟩

theorem session_inv : SessionInv session where
  fault_legal := by decide
  events_allowed := by decide
  init_starts := by decide
  init_complete := fun _ => ⟨[], 0x00#8, [], by decide⟩
  trace_settled := by decide

theorem witness_StepKeepsTheSessionInvariant :
    ∃ s t, SessionInv s ∧ step s = .next t :=
  ⟨{ session with pending := [.command 0x04000000005A#48] }, _,
    ⟨session_inv.1, session_inv.2, session_inv.3, session_inv.4, session_inv.5⟩, rfl⟩

theorem witness_InitializedExactlyWhenInitSeqEmitted : SessionInv session ∧ session.initialized = true :=
  ⟨session_inv, rfl⟩

theorem witness_InitSeqStandsOnceInTheTrace :
    SessionInv session ∧ session.trace = [] ++ initTrace 0x00#8 ++ [] := ⟨session_inv, by decide⟩

theorem witness_StepKeepsTheRecordInvariant :
    ∃ s t, RecordInv s ∧ step s = .next t :=
  ⟨given State.reset 0x010000000000#48, _, ⟨rfl, rfl, by simp [given, State.reset]⟩, rfl⟩

theorem witness_InitRunsTheInitSequence : State.reset.fault = 0#3 ∧ State.reset.initialized = false := by decide

/-- The servo clause at the angles on both sides of DUTY_RANGE, on the last valid channel and the first invalid one. -/
theorem witness_InitialisedBlockIsNotInitialisedAgain :
    session.fault = 0#3 ∧ session.initialized = true ∧
      (∃ t, step (given session 0x010000000000#48) = .next t ∧
        nextInput (given session 0x010000000000#48) ≠ some .reset) ∧
      ((15#8).toNat ≤ 15 ∧ 31940 ≤ (31940#16).toNat) ∧ ¬31940 ≤ (31939#16).toNat ∧ ¬(16#8).toNat ≤ 15 :=
  ⟨rfl, rfl, ⟨_, rfl, by decide⟩, by decide, by decide, by decide⟩

theorem witness_InitSeqNeverFaults : State.reset.fault = 0#3 := rfl

/-- The frequencies at both ends of the legal range. -/
theorem witness_SetFreqRunsItsSequence :
    State.reset.fault = 0#3 ∧ 24 ≤ (24#16).toNat ∧ (24#16).toNat ≤ 6103 ∧ 24 ≤ (6103#16).toNat ∧
      (6103#16).toNat ≤ 6103 := by decide

theorem witness_ZeroFrequencyRaisesItsFault : State.reset.fault = 0#3 := rfl

/-- Both clauses: 23 and 6104 fault, 24 and 6103 do not. -/
theorem witness_PrescaleIsAByteOrAFault :
    State.reset.fault = 0#3 ∧
    (∀ f ∈ [23#16, 6104#16], f ≠ 0#16 ∧
      (((25000000 / 4096 / f.toNat : Nat) : Int) - 1 < 0 ∨ ((25000000 / 4096 / f.toNat : Nat) : Int) - 1 > 255)) ∧
    (∀ f ∈ [24#16, 6103#16], f ≠ 0#16 ∧
      ¬(((25000000 / 4096 / f.toNat : Nat) : Int) - 1 < 0 ∨ ((25000000 / 4096 / f.toNat : Nat) : Int) - 1 > 255)) := by
  simp [State.reset]

theorem witness_PrescaleTruncatesOnce : 1 ≤ 50 := by decide

theorem witness_LegalFrequencies : 1 ≤ 24 ∧ State.reset.fault = 0#3 := by decide

theorem witness_Mode1WritesSetOnlyTheirBits :
    State.reset.fault = 0#3 ∧ 24 ≤ (50#16).toNat ∧ (50#16).toNat ≤ 6103 := by decide

theorem witness_AnyByteCanBeRead :
    (block true 0xEF#8).fault = 0#3 ∧ 24 ≤ (50#16).toNat ∧ (50#16).toNat ≤ 6103 ∧
      (block true 0xEF#8).reads = 0xEF#8 :: [] := by decide

theorem witness_SettleWaitIsLongEnough :
    State.reset.fault = 0#3 ∧ 24 ≤ (50#16).toNat ∧ (50#16).toNat ≤ 6103 ∧ State.reset.initialized = false := by decide

theorem witness_SetFreqReachesOnlyMode1AndPrescale :
    ∃ t, exec (.setFreq 50#16) State.reset = .next t ∧ ((0x40#8, 0x06#8) : Byte × Byte) ≠ (0x40#8, 0x00#8) ∧
      ((0x40#8, 0x06#8) : Byte × Byte) ≠ (0x40#8, 0xFE#8) := ⟨_, rfl, by decide, by decide⟩

theorem witness_SetFreqIgnoresInitialized :
    ∃ t, exec (.setFreq 50#16) State.reset = .next t ∧ State.reset.initialized = false ∧ t.fault = 0#3 :=
  ⟨_, rfl, rfl, by decide⟩

theorem witness_SetPwmLoadsTheWindow :
    State.reset.fault = 0#3 ∧ (0#8).toNat ≤ 15 ∧ (15#8).toNat ≤ 15 := by decide

theorem witness_InvalidChannelIsDropped : State.reset.fault = 0#3 ∧ 16 ≤ (16#8).toNat ∧ 16 ≤ (255#8).toNat := by decide

theorem witness_WideDutyRaisesItsFault :
    (0xFFFF < 0x10000 ∧ 15 ≤ 15) ∧ session.fault = 0#3 ∧ (15#8).toNat ≤ 15 ∧ 31940 ≤ (31940#16).toNat ∧
    ∃ t, exec (.servo 15#8 31940#16) session = .next t ∧ t.fault = 5#3 :=
  ⟨by decide, rfl, by decide, by decide, _, rfl, by decide⟩

theorem witness_SetPwmIgnoresInitialized :
    (∃ t, exec (.setPwm 15#8 0#16 2048#16) State.reset = .next t) ∧ State.reset.initialized = false ∧
    (15#8).toNat ≤ 15 := ⟨⟨_, rfl⟩, rfl, by decide⟩

/-- The register below the channel's first and the one above its last. -/
theorem witness_ChannelLoadReachesOnlyItsChannel :
    (∃ t, exec (.servo 1#8 90#16) session = .next t) ∧ session.initialized = true ∧
    ∀ reg ∈ [0x09#8, 0x0E#8], ∀ k : Nat, k < 4 →
      ((0x40#8, reg) : Byte × Byte) ≠ (0x40#8, chanBase Config.hw (channelVal 1#8) + BitVec.ofNat 8 k) :=
  ⟨⟨_, rfl⟩, rfl, by decide⟩

theorem witness_ChannelRegistersAreLittleEndian :
    (15#8).toNat ≤ 15 ∧ ∃ t, exec (.setPwm 15#8 256#16 2048#16) State.reset = .next t := ⟨by decide, _, rfl⟩

/-- Both forms: an invalid channel with any angle, a valid one with the largest legal angle. -/
theorem witness_ServoDrivesTheChannel :
    State.reset.fault = 0#3 ∧ (16 ≤ (16#8).toNat ∨ (65535#16).toNat < 31940) ∧
      (16 ≤ (15#8).toNat ∨ (31939#16).toNat < 31940) ∧ session.initialized = true := by decide

theorem witness_ServoWithAWideAngleFaults :
    State.reset.fault = 0#3 ∧ (15#8).toNat ≤ 15 ∧ 31940 ≤ (31940#16).toNat := by decide

theorem witness_ServoPulseDrivesTheChannel : State.reset.fault = 0#3 ∧ session.initialized = true := by decide

theorem witness_ServoAndServoPulseConverge : State.reset.fault = 0#3 ∧ (6493#16).toNat ≤ 6493 := by decide

theorem witness_PulseToTickTruncates : 655950 ≤ 655950 := by decide

theorem witness_ServoOutputRanges : 180 ≤ 180 ∧ State.reset.fault = 0#3 ∧ (15#8).toNat ≤ 15 := by decide

theorem witness_ServoPulseOutputRanges : 4 ≤ 4 ∧ State.reset.fault = 0#3 := by decide

theorem witness_ServoOnTickIsZero :
    (∃ t, exec (.servo 0#8 90#16) State.reset = .next t) ∧ ∃ t, exec (.servoPulse 0#8 1500#16) State.reset = .next t :=
  ⟨⟨_, rfl⟩, _, rfl⟩

theorem witness_SetFreqLeavesTheServoConverterAlone :
    session.initialized = true ∧ ∃ t, exec (.setFreq 60#16) session = .next t ∧ t.fault = 0#3 :=
  ⟨rfl, _, rfl, by decide⟩

/-! ## The end of a run (70_reset_and_hazards.md R162) -/

/-- A run that has run no command, one after INIT, one after a fault, and one with a reset after that fault. -/
theorem test_run_ends :
    (Run.start State.reset).endedWell = false ∧
    ((Run.start (given (block false 0x00#8) 0x010000000000#48)).steps 1).map Run.endedWell = some true ∧
    ((Run.start (given (block true 0x00#8) 0x020000000000#48)).steps 1).map Run.endedWell = some false ∧
    ((Run.start { block true 0x00#8 with pending := [.command 0x020000000000#48, .reset] }).steps 2).map
      (fun r => (r.endedWell, r.state.fault)) = some (false, 0#3) := by decide

/-- A reset that is still to come keeps no run from having ended. -/
theorem test_run_ends_before_a_reset :
    ((Run.start { block true 0x00#8 with pending := [.command 0x010000000000#48, .reset] }).steps 1).map
      Run.endedWell = some true := by decide

/-- Each clause: a word that faults and one that does not, the last one or not, and a reset. -/
theorem witness_RunEndsWellByALastCommandDone :
    (∀ w ∈ [0x010000000000#48, 0x000000000000#48], ∀ rest ∈ [[], [.reset], [.command 0x010000000000#48]],
      (Run.start { State.reset with pending := .command w :: rest }).state.fault = 0#3 ∧
      (Run.start { State.reset with pending := .command w :: rest }).state.pending = .command w :: rest) ∧
    (⟨{ State.reset with pending := [.reset] }, some .done⟩ : Run).state.pending = .reset :: [] :=
  ⟨fun _ _ _ _ => ⟨rfl, rfl⟩, rfl⟩

theorem witness_RunOfLegalWordsEndsWell :
    State.reset.fault = 0#3 ∧
    ({ State.reset with pending := [.command 0x010000000000#48, .command 0x04000000005A#48] }).pending =
      [0x010000000000#48, 0x04000000005A#48].map .command ∧
    expectedFault 0x010000000000#48 = 0#3 ∧ expectedFault 0x04000000005A#48 = 0#3 ∧
    ({ State.reset with pending := [.command 0x010000000000#48, .command 0x000000000000#48] }).pending =
      ([0x010000000000#48] ++ 0x000000000000#48 :: []).map .command ∧
    expectedFault 0x000000000000#48 ≠ 0#3 := by decide

theorem witness_RunEndSaysNothingOfTheTransport :
    ({ State.reset with acks := [true], waits := [5000] }).forgetTransport = State.reset.forgetTransport := by decide

end Sys2Proof.Tests
end

section
/-! What a step sends over the bus and where (20_memory.md R40 to R43). -/

namespace Sys2Proof.Machine

/-- The base of a valid channel is not wrapped to a byte (20_memory.md R43). -/
theorem chanBase_toNat {n : Nat} (h : n < 16) : (chanBase Config.hw n).toNat = 0x06 + 4 * n := by
  simp [chanBase]
  omega

/-- The registers an allowed event writes (20_memory.md R43): a block write begins at 0x42 at the latest, so that its
fourth byte reaches 0x45 and no address wraps. -/
theorem allowed_stores {e : BusEvent} {dev reg v : Byte} (ha : e.allowed = true) (hs : ((dev, reg), v) ∈ e.stores) :
    dev = 0x40#8 ∧ (reg = 0x00#8 ∨ reg = 0xFE#8 ∨ 0x06 ≤ reg.toNat ∧ reg.toNat ≤ 0x45) := by
  cases e with
  | wr dev' reg' v' =>
    simp only [BusEvent.stores, List.mem_singleton, Prod.mk.injEq] at hs
    obtain ⟨⟨rfl, rfl⟩, rfl⟩ := hs
    simp only [BusEvent.allowed, Bool.and_eq_true, Bool.or_eq_true, beq_iff_eq] at ha
    exact ⟨ha.1, ha.2.imp_right .inl⟩
  | wrBlk dev' base d0 d1 d2 d3 =>
    simp only [BusEvent.allowed, Bool.and_eq_true, beq_iff_eq, decide_eq_true_eq] at ha
    obtain ⟨hdev, hlow, hhigh, -⟩ := ha
    simp only [BusEvent.stores, List.mem_cons, List.not_mem_nil, or_false, Prod.mk.injEq] at hs
    obtain ⟨⟨rfl, rfl⟩, -⟩ | ⟨⟨rfl, rfl⟩, -⟩ | ⟨⟨rfl, rfl⟩, -⟩ | ⟨⟨rfl, rfl⟩, -⟩ := hs <;>
      exact ⟨hdev, .inr (.inr (by bv_omega))⟩
  | rd dev' reg' v' => cases hs
  | dly us => cases hs

/-- An allowed read is a read of MODE1 (20_memory.md R42). -/
theorem allowed_rd {dev reg v : Byte} (ha : (BusEvent.rd dev reg v).allowed = true) : dev = 0x40#8 ∧ reg = 0x00#8 := by
  simpa [BusEvent.allowed] using ha

/-- What a command adds to the trace is allowed events. -/
theorem effect_adds_allowed {s t : State} (h : Effect s t) :
    ∃ evs, t.trace = s.trace ++ evs ∧ ∀ e ∈ evs, e.allowed = true := by
  obtain ⟨-, -, ⟨-, hadd⟩ | ⟨-, -, m, hadd⟩⟩ := h
  · obtain ⟨htr, -⟩ | ⟨-, n, on, off, hn, htr⟩ | ⟨-, p, m, htr⟩ := hadd
    · exact ⟨[], by simp [htr], by simp⟩
    · exact ⟨_, htr, List.forall_mem_singleton.2 (windowEvent_allowed hn)⟩
    · exact ⟨_, htr, freqTrace_allowed p m⟩
  · obtain ⟨htr, -⟩ | ⟨-, n, on, off, hn, htr⟩ := hadd
    · exact ⟨_, htr, initTrace_allowed m⟩
    · exact ⟨_, htr.trans (List.append_assoc ..), List.forall_mem_append.2
        ⟨initTrace_allowed m, List.forall_mem_singleton.2 (windowEvent_allowed hn)⟩⟩

/-- A step that is no reset keeps the trace and adds allowed events to it (10_state.md R26, 20_memory.md R42). -/
theorem step_adds_allowed {s t : State} (h : step s = .next t) (hr : nextInput s ≠ some .reset) :
    ∃ evs, t.trace = s.trace ++ evs ∧ ∀ e ∈ evs, e.allowed = true := by
  obtain ⟨-, -, rfl⟩ | ⟨rest, hp, -⟩ | ⟨w, rest, d, -, -, -, rfl⟩ | ⟨w, rest, i, -, -, hx⟩ := step_next_cases h
  · exact ⟨[], by simp, by simp⟩
  · exact absurd (by simp [nextInput, hp]) hr
  · exact ⟨[], by simp, by simp⟩
  · simpa using effect_adds_allowed (exec_effect hx)

/-- Settles O18: every event a step adds is an allowed one (`step_adds_allowed`), and those stay inside the block's
registers (`allowed_stores`, `allowed_rd`). -/
theorem stepTouchesOnlyTheBlocksRegisters : Obligations.StepTouchesOnlyTheBlocksRegisters := by
  refine ⟨fun n hn => chanBase_toNat hn, fun s t h hr => ?_⟩
  obtain ⟨evs, htr, hall⟩ := step_adds_allowed h hr
  refine ⟨evs, htr, fun e he => ⟨fun dev reg v hs => allowed_stores (hall e he) hs, ?_⟩⟩
  rintro dev reg v rfl
  exact allowed_rd (hall _ he)

end Sys2Proof.Machine
end

section
/-! What the decoder answers to a word, told by the word's fields (30_encoding.md R61 to R67). -/

namespace Sys2Proof

/-- The fields a command is encoded with decode to it (30_encoding.md R63, R65). -/
theorem decodeFields_of_fields (i : Instr) : decodeFields i.fields = .ok i := by
  cases i <;> simp [decodeFields, Instr.fields]

theorem decode_encode (i : Instr) : decode (encode i) = .ok i := by
  rw [decode, encode, CmdFields.ofWord_toWord, decodeFields_of_fields]

/-- A word decodes to a command exactly when its fields are the command's. -/
theorem decode_ok_iff {w : CmdWord} {i : Instr} : decode w = .ok i ↔ CmdFields.ofWord w = i.fields :=
  ⟨fun h => (decodeFields_fields h).symm, fun h => by rw [decode, h, decodeFields_of_fields]⟩

/-- An opcode that is not listed (30_encoding.md R66). -/
theorem decodeFields_of_illegal {f : CmdFields} (h : f.legalOp = false) : decodeFields f = .error .illegalOpcode := by
  have hne : ∀ op : Byte, 1 ≤ op.toNat ∧ op.toNat ≤ 5 → f.op ≠ op := by
    rintro op hop rfl
    simp [CmdFields.legalOp, hop] at h
  simp [decodeFields, hne]

/-- Which fields must be 0, opcode by opcode (30_encoding.md R63). -/
theorem reservedZero_eq_false_iff {f : CmdFields} : f.reservedZero = false ↔
    f.op = 0x01#8 ∧ (f.ch ≠ 0#8 ∨ f.a ≠ 0#16 ∨ f.b ≠ 0#16) ∨
    f.op = 0x02#8 ∧ (f.ch ≠ 0#8 ∨ f.a ≠ 0#16) ∨
    (f.op = 0x04#8 ∨ f.op = 0x05#8) ∧ f.a ≠ 0#16 := by
  simp only [CmdFields.reservedZero, Bool.and_eq_false_iff, Bool.or_eq_false_iff, bne_eq_false_iff_eq,
    beq_eq_false_iff_ne]
  tauto

/-- A must-be-0 field that is not 0 (30_encoding.md R67). -/
theorem decodeFields_of_reserved {f : CmdFields} (h : f.reservedZero = false) :
    decodeFields f = .error .reservedField := by
  obtain ⟨hop, hz⟩ | ⟨hop, hz⟩ | ⟨hop | hop, hz⟩ := reservedZero_eq_false_iff.1 h <;> simp [decodeFields, hop, hz]

theorem CmdFields.ofWord_and (w v : CmdWord) :
    CmdFields.ofWord (w &&& v) = ⟨(ofWord w).op &&& (ofWord v).op, (ofWord w).ch &&& (ofWord v).ch,
      (ofWord w).a &&& (ofWord v).a, (ofWord w).b &&& (ofWord v).b⟩ := by
  simp [CmdFields.ofWord, BitVec.extractLsb'_and]

theorem CmdFields.eq_toWord_iff {w : CmdWord} {f : CmdFields} : w = f.toWord ↔ CmdFields.ofWord w = f :=
  ⟨fun h => by rw [h, ofWord_toWord], fun h => by rw [← h, toWord_ofWord]⟩

/-- A mask and a match, written out by their fields, test the fields of a word one by one (30_encoding.md R64). -/
theorem and_toWord_eq_iff (w : CmdWord) (mask pattern : CmdFields) : w &&& mask.toWord = pattern.toWord ↔
    CmdFields.mk ((CmdFields.ofWord w).op &&& mask.op) ((CmdFields.ofWord w).ch &&& mask.ch)
      ((CmdFields.ofWord w).a &&& mask.a) ((CmdFields.ofWord w).b &&& mask.b) = pattern := by
  rw [CmdFields.eq_toWord_iff, CmdFields.ofWord_and, CmdFields.ofWord_toWord]

/-- The opcode is in every row's mask, so a word that selects a row has the row's opcode (30_encoding.md R64). -/
theorem op_of_selects {r : OpRow} (hr : r ∈ opTable) {w : CmdWord} (h : r.selects w = true) :
    (CmdFields.ofWord w).op = (CmdFields.ofWord r.pattern).op := by
  have hmask : ∀ r ∈ opTable, (CmdFields.ofWord r.mask).op = BitVec.allOnes 8 := by decide
  rw [← beq_iff_eq.1 h, CmdFields.ofWord_and, hmask r hr, BitVec.and_allOnes]

/-- The rows of the opcode table are told apart by their opcodes (30_encoding.md R63). -/
theorem opTable_op_inj : ∀ r ∈ opTable, ∀ r' ∈ opTable,
    (CmdFields.ofWord r.pattern).op = (CmdFields.ofWord r'.pattern).op → r = r' := by decide

/-- Settles O3: mask and match test the fields of the word one by one (`and_toWord_eq_iff`), as the decoder does
(`decode_ok_iff`), and a word has only one opcode (`op_of_selects`). -/
theorem matchAndMaskSelectTheCommand : Obligations.MatchAndMaskSelectTheCommand := by
  intro w
  have hbyte (x : Byte) : x &&& 0xFF#8 = x := BitVec.and_allOnes
  have hoperand (x : Operand) : x &&& 0xFFFF#16 = x := BitVec.and_allOnes
  have hinit := and_toWord_eq_iff w ⟨0xFF#8, 0xFF#8, 0xFFFF#16, 0xFFFF#16⟩ ⟨0x01#8, 0#8, 0#16, 0#16⟩
  have hsetFreq := and_toWord_eq_iff w ⟨0xFF#8, 0xFF#8, 0xFFFF#16, 0#16⟩ ⟨0x02#8, 0#8, 0#16, 0#16⟩
  have hsetPwm := and_toWord_eq_iff w ⟨0xFF#8, 0#8, 0#16, 0#16⟩ ⟨0x03#8, 0#8, 0#16, 0#16⟩
  have hservo := and_toWord_eq_iff w ⟨0xFF#8, 0#8, 0xFFFF#16, 0#16⟩ ⟨0x04#8, 0#8, 0#16, 0#16⟩
  have hservoPulse := and_toWord_eq_iff w ⟨0xFF#8, 0#8, 0xFFFF#16, 0#16⟩ ⟨0x05#8, 0#8, 0#16, 0#16⟩
  simp only [decode_ok_iff, Instr.fields]
  generalize CmdFields.ofWord w = f at *
  obtain ⟨op, ch, a, b⟩ := f
  refine ⟨hinit.trans ?_, hsetFreq.trans ?_, hsetPwm.trans ?_, hservo.trans ?_, hservoPulse.trans ?_,
    fun r hr r' hr' h h' => opTable_op_inj r hr r' hr' ((op_of_selects hr h).symm.trans (op_of_selects hr' h'))⟩ <;>
    simp [hbyte, hoperand]

end Sys2Proof

namespace Sys2Proof.Machine

variable {s : State} {w : CmdWord} {rest : List HostInput}

/-- A command word that does not decode changes FAULT and is taken, and that is all (30_encoding.md R65). -/
theorem step_of_decode_error {d : DecodeFault} (hf : s.fault = 0#3) (hp : s.pending = .command w :: rest)
    (hd : decode w = .error d) : step s = .next { s with pending := rest, fault := (decodeCause d).code } := by
  rw [step_reject hp hd hf, enterFault, dropInput, hp, List.tail_cons]

/-- Settles O5: an opcode outside 0x01 to 0x05 is not legal, and the decoder rejects it by ILLEGAL_OPCODE
(`decodeFields_of_illegal`). -/
theorem illegalOpcodeRaisesItsFault : Obligations.IllegalOpcodeRaisesItsFault := by
  intro s w rest hf hp hop
  have hill : (CmdFields.ofWord w).legalOp = false := decide_eq_false (by simp only [CmdFields.ofWord]; omega)
  exact step_of_decode_error hf hp (decodeFields_of_illegal hill)

/-- Settles O6: the fields named by the hypothesis are the must-be-0 fields of the opcode, and the decoder rejects one
that is not 0 by RESERVED_FIELD (`decodeFields_of_reserved`). -/
theorem reservedFieldRaisesItsFault : Obligations.ReservedFieldRaisesItsFault := by
  intro s w rest hf hp hres
  exact step_of_decode_error hf hp (decodeFields_of_reserved (reservedZero_eq_false_iff.2 hres))

/-- Settles O4: each layout is the encoding of its command. -/
theorem decodeReadsTheRawFields : Obligations.DecodeReadsTheRawFields := fun ch a b =>
  ⟨decode_encode .init, decode_encode (.setFreq b), decode_encode (.setPwm ch a b), decode_encode (.servo ch b),
    decode_encode (.servoPulse ch b)⟩

/-- Settles O7: fixed texts and fixed words, each run by the model (30_encoding.md R71). -/
theorem exampleTextsAndWords : Obligations.ExampleTextsAndWords := by
  unfold Obligations.ExampleTextsAndWords
  decide

end Sys2Proof.Machine
end

section
/-! Lazy initialisation (40_init.md R80, R82, R85, R86), and what the servo commands do on an initialised block. -/

namespace Sys2Proof.Machine

variable {s t u : State}

/-- EnsureInit does nothing on an initialised block (40_init.md R86). -/
theorem ensureInit_of_initialized (hi : s.initialized = true) : ensureInit Config.hw s = .go s := by
  simp [ensureInit, hi]

/-- INIT is EnsureInit (40_init.md R80). -/
theorem exec_init_of_ensureInit (hf : s.fault = 0#3) (he : ensureInit Config.hw s = .go u) :
    exec .init s = .next u :=
  (runCommand_of_no_fault (ensureInit Config.hw) hf).trans (by rw [he, go_state])

/-- SERVO loads its angle once EnsureInit is through (43_servo.md R117). -/
theorem exec_servo_of_ensureInit (ch : Byte) (angle : Operand) (hf : s.fault = 0#3)
    (he : ensureInit Config.hw s = .go u) :
    exec (.servo ch angle) s = .next (loadAngle Config.hw ch.toNat angle.toNat u).state :=
  (runCommand_of_no_fault (servoFlow Config.hw ch.toNat angle.toNat) hf).trans (by rw [servoFlow, he, go_andThen])

/-- SERVO_PULSE loads its pulse width once EnsureInit is through (43_servo.md R118). -/
theorem exec_servoPulse_of_ensureInit (ch : Byte) (pulse : Operand) (hf : s.fault = 0#3)
    (he : ensureInit Config.hw s = .go u) :
    exec (.servoPulse ch pulse) s = .next (loadPulse Config.hw ch.toNat pulse.toNat u).state :=
  (runCommand_of_no_fault (servoPulseFlow Config.hw ch.toNat pulse.toNat) hf).trans
    (by rw [servoPulseFlow, he, go_andThen])

/-- Settles O28: InitSeq and EnsureInit run to their ends from every state (`initSeq_go`, `ensureInit_go`), and INIT is
EnsureInit. -/
theorem initSeqNeverFaults : Obligations.InitSeqNeverFaults := by
  refine ⟨by decide, fun s => ?_⟩
  obtain ⟨t, hseq, -, -, hft, -⟩ := initSeq_go s
  obtain ⟨u, hens, hiu, hfu, -⟩ := ensureInit_go s
  exact ⟨t, hseq, hft, ⟨u, hens, hfu, hiu⟩,
    fun hf => ⟨u, exec_init_of_ensureInit hf hens, hfu.trans hf, hiu⟩⟩

/-- On a valid channel a servo load's one event is the block write of the window from 0 to its tick (43_servo.md R123). -/
theorem servoLoadTrace_of_valid {ch : Byte} (hch : ch.toNat < 16) (v : Nat) :
    servoLoadTrace ch v = [windowEvent Config.hw ch.toNat 0 v] := by
  have hlo : BitVec.ofNat 8 (v % 256) = BitVec.ofNat 8 v := BitVec.eq_of_toNat_eq (by simp)
  simp [servoLoadTrace, show ch.toNat ≤ 15 by omega, windowEvent, chanBase, lo8, hi8, BitVec.ofNat_add, hlo]

/-- On an invalid channel a servo load has no event (42_channel_load.md R107). -/
theorem servoLoadTrace_of_invalid {ch : Byte} (hch : 16 ≤ ch.toNat) (v : Nat) : servoLoadTrace ch v = [] :=
  if_neg (by omega)

/-- The three ways a servo load can go, told as one trace: nothing where it raises DUTY_RANGE, else the events of a load
with duty tick v. -/
theorem servoLoad_trace_of_cases {ch : Byte} {v : Nat} {P Q R : Prop}
    (h : 16 ≤ ch.toNat ∧ t.trace = s.trace ∧ P ∨
      ch.toNat < 16 ∧ 0xFFFF < v ∧ t.trace = s.trace ∧ Q ∨
      ch.toNat < 16 ∧ v ≤ 0xFFFF ∧ R ∧ t.trace = s.trace ++ [windowEvent Config.hw ch.toNat 0 v]) :
    t.trace = s.trace ++ if ch.toNat ≤ 15 ∧ 0xFFFF < v then [] else servoLoadTrace ch v := by
  obtain ⟨hch, htr, -⟩ | ⟨hch, hv, htr, -⟩ | ⟨hch, hv, -, htr⟩ := h
  · rw [if_neg (by omega), servoLoadTrace_of_invalid hch, htr, List.append_nil]
  · rw [if_pos (by omega), htr, List.append_nil]
  · rw [if_neg (by omega), servoLoadTrace_of_valid hch, htr]

/-- The duty tick of an angle, by the numbers of 43_servo.md R115 and R116. -/
theorem pulseToTick_angleToPulse (d : Nat) :
    pulseToTick Config.hw (angleToPulse Config.hw d) = (10 * d + 600) * 4096 / 20000 := by
  simp [pulseToTick, angleToPulse, show d * 1800 / 180 = 10 * d by omega]

/-- The load of an angle adds the events of its tick, none from 31940 degrees on, where the tick is wider than 16 bits
(43_servo.md R121); INITIALIZED is kept. -/
theorem loadAngle_trace (ch : Byte) (angle : Operand) (s : State) :
    (loadAngle Config.hw ch.toNat angle.toNat s).state.initialized = s.initialized ∧
    (loadAngle Config.hw ch.toNat angle.toNat s).state.trace = s.trace ++
      if ch.toNat ≤ 15 ∧ 31940 ≤ angle.toNat then []
      else servoLoadTrace ch ((10 * angle.toNat + 600) * 4096 / 20000) := by
  obtain ⟨t, rfl, hi, -, -, -, -, hcases⟩ := loadAngle_cases ch.toNat angle.toNat s angle.isLt
  have hwide : 0xFFFF < (10 * angle.toNat + 600) * 4096 / 20000 ↔ 31940 ≤ angle.toNat := by omega
  rw [pulseToTick_angleToPulse] at hcases
  exact ⟨hi, by simpa only [hwide] using servoLoad_trace_of_cases hcases⟩

/-- The load of a SERVO_PULSE operand adds the events of its tick, which always fits (43_servo.md R122); INITIALIZED is
kept. -/
theorem loadPulse_trace (ch : Byte) (pulse : Operand) (s : State) :
    (loadPulse Config.hw ch.toNat pulse.toNat s).state.initialized = s.initialized ∧
    (loadPulse Config.hw ch.toNat pulse.toNat s).state.trace =
      s.trace ++ servoLoadTrace ch (pulse.toNat * 4096 / 20000) := by
  have htick := pulseToTick_operand pulse
  obtain ⟨t, rfl, hi, -, -, -, -, -, hcases⟩ := loadPulse_cases ch.toNat pulse.toNat s (by omega)
  have htr := servoLoad_trace_of_cases hcases
  rw [if_neg (by omega)] at htr
  exact ⟨hi, htr⟩

/-- No command clears INITIALIZED (10_state.md R20). -/
theorem effect_keeps_initialized (h : Effect s t) (hi : s.initialized = true) : t.initialized = true := by
  obtain ⟨-, -, ⟨hkept, -⟩ | ⟨-, hset, -⟩⟩ := h
  · exact hkept.trans hi
  · exact hset

/-- Only a reset clears INITIALIZED (10_state.md R20). -/
theorem step_keeps_initialized (h : step s = .next t) (hr : nextInput s ≠ some .reset) (hi : s.initialized = true) :
    t.initialized = true := by
  obtain ⟨-, -, rfl⟩ | ⟨rest, hp, -⟩ | ⟨w, rest, d, -, -, -, rfl⟩ | ⟨w, rest, i, -, -, hx⟩ := step_next_cases h
  · exact hi
  · exact absurd (by simp [nextInput, hp]) hr
  · exact hi
  · exact effect_keeps_initialized (exec_effect hx) hi

/-- Settles O27: with INITIALIZED 1 EnsureInit does nothing (`ensureInit_of_initialized`), so that INIT ends where it began
and a servo command is its load alone (`loadAngle_trace`, `loadPulse_trace`); only a reset clears INITIALIZED. -/
theorem initialisedBlockIsNotInitialisedAgain : Obligations.InitialisedBlockIsNotInitialisedAgain := by
  refine ⟨fun s hf hi => exec_init_of_ensureInit hf (ensureInit_of_initialized hi),
    fun s hi => ensureInit_of_initialized hi, fun s ch x hf hi => ⟨?servo, ?servoPulse⟩,
    fun s t hi h hr => step_keeps_initialized h hr hi⟩
  case servo =>
    obtain ⟨hkept, htr⟩ := loadAngle_trace ch x s
    exact ⟨_, exec_servo_of_ensureInit ch x hf (ensureInit_of_initialized hi), hkept.trans hi, htr⟩
  case servoPulse =>
    obtain ⟨hkept, htr⟩ := loadPulse_trace ch x s
    exact ⟨_, exec_servoPulse_of_ensureInit ch x hf (ensureInit_of_initialized hi), hkept.trans hi, htr⟩

end Sys2Proof.Machine
end

section
/-! The prescale calculator and SET_FREQ (41_prescale.md). -/

namespace Sys2Proof.Machine

variable {s : State} {f : Operand}

/-- The prescale in this hardware's numbers, OSC_HZ // TICKS being 6103 (41_prescale.md R90). -/
theorem prescale_hw (f : Nat) : prescale Config.hw f = ((6103 / f : Nat) : Int) - 1 := by simp [prescale]

theorem prescaleFits_iff {p : Int} : prescaleFits p = true ↔ 0 ≤ p ∧ p ≤ 255 := by simp [prescaleFits]

theorem prescaleFits_eq_false_iff {p : Int} : prescaleFits p = false ↔ p < 0 ∨ p > 255 := by
  rw [Bool.eq_false_iff, ne_eq, prescaleFits_iff]
  omega

/-- The prescale falls from 264 at 23 Hz to 253 at 24 Hz and takes no value between (41_prescale.md R94). -/
theorem prescale_gap {f : Nat} (h1 : 1 ≤ f) :
    f ≤ 23 ∧ 264 ≤ prescale Config.hw f ∨ 24 ≤ f ∧ prescale Config.hw f ≤ 253 := by
  rw [prescale_hw]
  obtain h | h := Nat.lt_or_ge f 24
  · have hq : 265 ≤ 6103 / f := (Nat.le_div_iff_mul_le h1).2 (by omega)
    omega
  · have hq : 6103 / f < 255 := (Nat.div_lt_iff_lt_mul h1).2 (by omega)
    omega

/-- The prescale is below 0 exactly above 6103 Hz, where the quotient is 0 (41_prescale.md R94). -/
theorem prescale_nonneg_iff {f : Nat} (h1 : 1 ≤ f) : 0 ≤ prescale Config.hw f ↔ f ≤ 6103 := by
  have hq : 1 ≤ 6103 / f ↔ f ≤ 6103 := by rw [Nat.le_div_iff_mul_le h1, one_mul]
  rw [prescale_hw, ← hq]
  omega

/-- The legal frequencies (41_prescale.md R94). -/
theorem prescale_inRange_iff {f : Nat} (h1 : 1 ≤ f) :
    (0 ≤ prescale Config.hw f ∧ prescale Config.hw f ≤ 255) ↔ (24 ≤ f ∧ f ≤ 6103) := by
  have hgap := prescale_gap h1
  have hhigh := prescale_nonneg_iff h1
  omega

/-- SET_FREQ is SetFreqSeq run whole (41_prescale.md R96). -/
theorem exec_setFreq (f : Operand) (hf : s.fault = 0#3) :
    exec (.setFreq f) s = .next (setFreqSeq Config.hw f.toNat s).state :=
  runCommand_of_no_fault (setFreqSeq Config.hw f.toNat) hf

/-- Frequency 0 raises FREQ_ZERO and does nothing else (41_prescale.md R92). -/
theorem exec_setFreq_zero (hf : s.fault = 0#3) : exec (.setFreq 0#16) s = .next { s with fault := 3#3 } := by
  rw [exec_setFreq _ hf]
  rfl

/-- A prescale that is no byte raises PRESCALE_RANGE and does nothing else (41_prescale.md R93). -/
theorem exec_setFreq_of_not_fits (hf : s.fault = 0#3) (h0 : f ≠ 0#16)
    (hp : prescaleFits (prescale Config.hw f.toNat) = false) :
    exec (.setFreq f) s = .next { s with fault := 4#3 } := by
  obtain ⟨hz, -⟩ | ⟨-, -, e⟩ | ⟨-, hp', -⟩ := setFreqSeq_cases Config.hw f.toNat s
  · exact absurd (BitVec.eq_of_toNat_eq hz) h0
  · rw [exec_setFreq f hf, e]
    rfl
  · rw [hp] at hp'
    cases hp'

/-- A prescale that is a byte is latched and the bus sequence runs (41_prescale.md R95). Frequency 0 is shut out, its
quotient being 0 and its prescale -1. -/
theorem exec_setFreq_of_fits (hf : s.fault = 0#3) (hp : prescaleFits (prescale Config.hw f.toNat) = true) :
    exec (.setFreq f) s =
      .next (freqBusSeq Config.hw (latchPresc (BitVec.ofInt 8 (prescale Config.hw f.toNat)) s)) := by
  obtain ⟨hz, -⟩ | ⟨-, hp', -⟩ | ⟨-, -, e⟩ := setFreqSeq_cases Config.hw f.toNat s
  · rw [hz] at hp
    exact absurd hp (by decide)
  · rw [hp] at hp'
    cases hp'
  · rw [exec_setFreq f hf, e, go_state]

/-- What SET_FREQ emits and how it ends where the prescale is a byte (41_prescale.md R95). -/
theorem exec_setFreq_emits (hf : s.fault = 0#3) (hp : prescaleFits (prescale Config.hw f.toNat) = true) :
    ∃ t, exec (.setFreq f) s = .next t ∧
      t.trace = s.trace ++ freqTrace (BitVec.ofInt 8 (prescale Config.hw f.toNat)) (nextRead s) ∧ t.fault = 0#3 :=
  ⟨_, exec_setFreq_of_fits hf hp, by simp [freqBusSeq_trace], by simp [hf]⟩

/-- Settles O30: SetFreqSeq checks for frequency 0 first. -/
theorem zeroFrequencyRaisesItsFault : Obligations.ZeroFrequencyRaisesItsFault := fun _ hf => exec_setFreq_zero hf

/-- Settles O31: SetFreqSeq checks the prescale before its first event (`exec_setFreq_of_not_fits`), and a prescale in
[0, 255] is the value of the byte it is latched as. -/
theorem prescaleIsAByteOrAFault : Obligations.PrescaleIsAByteOrAFault := by
  intro s f p hf h0 hp
  obtain rfl : p = prescale Config.hw f.toNat := hp
  refine ⟨fun hout => exec_setFreq_of_not_fits hf h0 (prescaleFits_eq_false_iff.2 hout), fun hin => ?_⟩
  obtain ⟨t, hx, htr, -⟩ := exec_setFreq_emits (f := f) hf (prescaleFits_iff.2 (by omega))
  refine ⟨t, _, _, hx, ?_, htr⟩
  rw [BitVec.toNat_ofInt]
  omega

/-- Settles O33: the range is `prescale_inRange_iff`, 254 and 255 lie in `prescale_gap`, and the boundary
outcomes are the model's three ways of running SET_FREQ. -/
theorem legalFrequencies : Obligations.LegalFrequencies := by
  refine ⟨fun f h1 => prescale_inRange_iff h1, by decide, by decide, by decide, by decide, by decide, by decide,
    fun f h1 => ?gap, fun s hf => ⟨exec_setFreq_zero hf, fun f hfs => ?faults, ?low, ?high⟩⟩
  case gap =>
    have hgap := prescale_gap h1
    omega
  case faults =>
    obtain rfl | rfl | rfl | rfl := hfs <;> exact exec_setFreq_of_not_fits hf (by decide) (by decide)
  case low =>
    obtain ⟨t, hx, htr, hft⟩ := exec_setFreq_emits (f := 24#16) hf (by decide)
    exact ⟨t, _, hx, htr, hft⟩
  case high =>
    obtain ⟨t, hx, htr, hft⟩ := exec_setFreq_emits (f := 6103#16) hf (by decide)
    exact ⟨t, _, hx, htr, hft⟩

/-- Settles O34: the sleep and the wake write send the byte read with a constant ORed into it, and the constants 0x10
and 0xA1 have just the bits named. -/
theorem mode1WritesSetOnlyTheirBits : Obligations.Mode1WritesSetOnlyTheirBits := by
  intro s f hf hlo hhi
  have hp := prescaleFits_iff.2 ((prescale_inRange_iff (by omega)).2 ⟨hlo, hhi⟩)
  obtain ⟨t, hx, htr, -⟩ := exec_setFreq_emits hf hp
  have hsleep : ∀ k < 8, (0x10#8).getLsbD k = (k == 4) := by decide
  have hwake : ∀ k < 8, (0xA1#8).getLsbD k = (k == 7 || k == 5 || k == 0) := by decide
  refine ⟨t, _, _, _, _, hx, htr, fun k hk => ⟨?_, ?_⟩⟩
  · rw [BitVec.getLsbD_or, hsleep k hk, Bool.or_comm]
  · rw [BitVec.getLsbD_or, hwake k hk, Bool.or_comm]

/-- SetFreqSeq leaves INITIALIZED alone (41_prescale.md R100). -/
theorem setFreqSeq_initialized (c : Config) (f : Nat) (s : State) :
    (setFreqSeq c f s).state.initialized = s.initialized := by
  obtain ⟨-, e⟩ | ⟨-, -, e⟩ | ⟨-, -, e⟩ := setFreqSeq_cases c f s <;> rw [e] <;> rfl

/-- SetFreqSeq does not read INITIALIZED: with another value in it all else is the same (41_prescale.md R100). -/
theorem setFreqSeq_setInitialized (c : Config) (f : Nat) (s : State) (b : Bool) :
    (setFreqSeq c f { s with initialized := b }).state = { (setFreqSeq c f s).state with initialized := b } := by
  unfold setFreqSeq
  split
  · rfl
  · split <;> rfl

/-- A SERVO on a block not initialised emits all of InitSeq before its own load (40_init.md R82, 43_servo.md R117). -/
theorem exec_servo_lazyInit (ch : Byte) (angle : Operand) (hf : s.fault = 0#3) (hi : s.initialized = false) :
    ∃ t evs, exec (.servo ch angle) s = .next t ∧ t.trace = s.trace ++ initTrace (nextRead s) ++ evs := by
  obtain ⟨u, hens, -, -, -, -, -, ⟨hi', -⟩ | ⟨-, -, htr⟩⟩ := ensureInit_go s
  · rw [hi] at hi'
    cases hi'
  · exact ⟨_, _, exec_servo_of_ensureInit ch angle hf hens, htr ▸ (loadAngle_trace ch angle u).2⟩

/-- Settles O38: SetFreqSeq neither writes INITIALIZED (`setFreqSeq_initialized`) nor reads it
(`setFreqSeq_setInitialized`), so that a SERVO after it still finds the block not initialised. -/
theorem setFreqIgnoresInitialized : Obligations.SetFreqIgnoresInitialized := by
  intro s t f h
  obtain ⟨hf, rfl⟩ := runCommand_next h
  have hkept := setFreqSeq_initialized Config.hw f.toNat s
  refine ⟨hkept, fun b => ?_, fun hi hft ch d => exec_servo_lazyInit ch d hft (hkept.trans hi)⟩
  rw [exec_setFreq f (s := { s with initialized := b }) hf, setFreqSeq_setInitialized]
  rfl

end Sys2Proof.Machine
end

section
/-! The channel load and SET_PWM (42_channel_load.md), and the one command that can raise DUTY_RANGE. -/

namespace Sys2Proof.Machine

variable {s t : State}

/-- A channel load of an invalid channel does nothing, its values in range or not (42_channel_load.md R107). -/
theorem channelLoad_invalid {ch : Nat} (hch : 16 ≤ ch) (on off : Nat) (s : State) :
    channelLoad Config.hw ch on off s = .go s := by
  obtain ⟨-, e⟩ | ⟨hc, -⟩ | ⟨hc, -⟩ := channelLoad_cases Config.hw ch on off s
  · exact e
  all_goals rw [Config.hw_numChannels] at hc; omega

/-- A channel load of a valid channel with a value wider than 16 bits raises DUTY_RANGE (42_channel_load.md R108). -/
theorem channelLoad_wide {ch on off : Nat} (hch : ch ≤ 15) (hwide : 0xFFFF < on ∨ 0xFFFF < off) (s : State) :
    channelLoad Config.hw ch on off s = raise .dutyRange s := by
  obtain ⟨hc, -⟩ | ⟨-, -, e⟩ | ⟨-, hon, hoff, -⟩ := channelLoad_cases Config.hw ch on off s
  · rw [Config.hw_numChannels] at hc; omega
  · exact e
  · omega

/-- A channel load leaves INITIALIZED alone (42_channel_load.md R110). -/
theorem channelLoad_initialized (c : Config) (ch on off : Nat) (s : State) :
    (channelLoad c ch on off s).state.initialized = s.initialized := by
  obtain ⟨-, e⟩ | ⟨-, -, e⟩ | ⟨-, -, -, e⟩ := channelLoad_cases c ch on off s <;> rw [e] <;> rfl

/-- A channel load does not read INITIALIZED: with another value in it all else is the same
(42_channel_load.md R110). -/
theorem channelLoad_setInitialized (c : Config) (ch on off : Nat) (s : State) (b : Bool) :
    (channelLoad c ch on off { s with initialized := b }).state =
      { (channelLoad c ch on off s).state with initialized := b } := by
  unfold channelLoad
  split
  · split <;> rfl
  · rfl

/-- A channel load of 16-bit values raises no fault, on no channel (42_channel_load.md R107, R108). -/
theorem channelLoad_operand_fault (c : Config) (ch : Nat) (on off : Operand) (s : State) :
    (channelLoad c ch on.toNat off.toNat s).state.fault = s.fault := by
  obtain ⟨-, e⟩ | ⟨-, hwide, -⟩ | ⟨-, -, -, e⟩ := channelLoad_cases c ch on.toNat off.toNat s
  · rw [e, go_state]
  · omega
  · rw [e, go_state, transact_fault]

/-- SET_PWM is a channel load of its operands (42_channel_load.md R109). -/
theorem exec_setPwm (ch : Byte) (on off : Operand) (hf : s.fault = 0#3) :
    exec (.setPwm ch on off) s = .next (channelLoad Config.hw ch.toNat on.toNat off.toNat s).state :=
  runCommand_of_no_fault (channelLoad Config.hw ch.toNat on.toNat off.toNat) hf

/-- The load of an angle raises DUTY_RANGE on a valid channel from 31940 degrees on, where the tick is wider than 16
bits, and else leaves FAULT alone (43_servo.md R121). -/
theorem loadAngle_fault (ch : Byte) (angle : Operand) (s : State) :
    (loadAngle Config.hw ch.toNat angle.toNat s).state.fault =
      if ch.toNat ≤ 15 ∧ 31940 ≤ angle.toNat then 5#3 else s.fault := by
  obtain ⟨t, rfl, -, -, -, -, -, hcases⟩ := loadAngle_cases ch.toNat angle.toNat s angle.isLt
  rw [pulseToTick_angleToPulse] at hcases
  obtain ⟨hch, -, hft⟩ | ⟨hch, hv, -, hft⟩ | ⟨hch, hv, hft, -⟩ := hcases
  · rw [if_neg (by omega), hft]
  · rw [if_pos (by omega), hft]
  · rw [if_neg (by omega), hft]

/-- The load of a SERVO_PULSE operand raises no fault, its tick fitting in 16 bits (43_servo.md R122). -/
theorem loadPulse_fault (ch : Byte) (pulse : Operand) (s : State) :
    (loadPulse Config.hw ch.toNat pulse.toNat s).state.fault = s.fault := by
  have htick := pulseToTick_operand pulse
  obtain ⟨t, rfl, -, -, -, -, -, -, hcases⟩ := loadPulse_cases ch.toNat pulse.toNat s (by omega)
  obtain ⟨-, -, hft⟩ | ⟨-, hv, -⟩ | ⟨-, -, hft, -⟩ := hcases
  · exact hft
  · omega
  · exact hft

/-- SetFreqSeq raises FREQ_ZERO or PRESCALE_RANGE or nothing, hence never DUTY_RANGE (41_prescale.md R92, R93). -/
theorem setFreqSeq_fault_ne_dutyRange (c : Config) (f : Nat) (hf : s.fault = 0#3) :
    (setFreqSeq c f s).state.fault ≠ 5#3 := by
  obtain ⟨-, e⟩ | ⟨-, -, e⟩ | ⟨-, -, e⟩ := setFreqSeq_cases c f s <;> rw [e]
  · simp [FaultCause.code]
  · simp [FaultCause.code]
  · simp [hf]

/-- What FAULT holds after a SERVO: EnsureInit raises nothing, so it is what the load of the angle leaves. -/
theorem exec_servo_fault (ch : Byte) (angle : Operand) (hf : s.fault = 0#3) :
    ∃ t, exec (.servo ch angle) s = .next t ∧
      t.fault = if ch.toNat ≤ 15 ∧ 31940 ≤ angle.toNat then 5#3 else 0#3 := by
  obtain ⟨u, hens, -, hfu, -⟩ := ensureInit_go s
  exact ⟨_, exec_servo_of_ensureInit ch angle hf hens, by rw [loadAngle_fault, hfu, hf]⟩

/-- A SERVO_PULSE never faults (43_servo.md R122). -/
theorem exec_servoPulse_fault (ch : Byte) (pulse : Operand) (hf : s.fault = 0#3) :
    ∃ t, exec (.servoPulse ch pulse) s = .next t ∧ t.fault = 0#3 := by
  obtain ⟨u, hens, -, hfu, -⟩ := ensureInit_go s
  exact ⟨_, exec_servoPulse_of_ensureInit ch pulse hf hens, by rw [loadPulse_fault, hfu, hf]⟩

/-- The one command that ends with FAULT 5 is a SERVO of a valid channel and a wide angle (60_exceptions.md R132). -/
theorem servo_of_dutyRange {i : Instr} (h : exec i s = .next t) (ht : t.fault = 5#3) :
    ∃ ch angle, i = .servo ch angle ∧ ch.toNat ≤ 15 ∧ 31940 ≤ angle.toNat := by
  obtain ⟨hf, -⟩ := exec_effect h
  cases i with
  | init =>
    obtain ⟨u, hens, -, hfu, -⟩ := ensureInit_go s
    obtain rfl : u = t := by simpa [exec_init_of_ensureInit hf hens] using h
    simp [hfu, hf] at ht
  | setFreq f =>
    obtain rfl : _ = t := by simpa [exec_setFreq f hf] using h
    exact absurd ht (setFreqSeq_fault_ne_dutyRange Config.hw f.toNat hf)
  | setPwm ch on off =>
    obtain rfl : _ = t := by simpa [exec_setPwm ch on off hf] using h
    simp [channelLoad_operand_fault, hf] at ht
  | servo ch angle =>
    obtain ⟨u, hx, hfu⟩ := exec_servo_fault ch angle hf
    obtain rfl : u = t := by simpa [hx] using h
    have hwide : ch.toNat ≤ 15 ∧ 31940 ≤ angle.toNat := by
      by_contra hn
      simp [hfu, hn] at ht
    exact ⟨ch, angle, rfl, hwide⟩
  | servoPulse ch pulse =>
    obtain ⟨u, hx, hfu⟩ := exec_servoPulse_fault ch pulse hf
    obtain rfl : u = t := by simpa [hx] using h
    simp [hfu] at ht

/-- Settles O40: ChannelLoad drops an invalid channel (`channelLoad_invalid`), and SET_PWM is a channel load. -/
theorem invalidChannelIsDropped : Obligations.InvalidChannelIsDropped :=
  ⟨fun s _ on off hch => channelLoad_invalid hch on off s,
    fun s ch on off hf hch => by rw [exec_setPwm ch on off hf, channelLoad_invalid hch, go_state]⟩

/-- Settles O41: the raise is `channelLoad_wide`. Of the commands only the load of an angle can have a tick wider than
16 bits (`servo_of_dutyRange`), and on a valid channel it has one from 31940 degrees on (`exec_servo_fault`). -/
theorem wideDutyRaisesItsFault : Obligations.WideDutyRaisesItsFault := by
  refine ⟨fun s ch on off hch hwide => channelLoad_wide hch hwide s, fun s t i h ht => servo_of_dutyRange h ht,
    fun s ch d hf hch hd => ?_⟩
  obtain ⟨t, hx, hft⟩ := exec_servo_fault ch d hf
  exact ⟨t, hx, hft.trans (if_pos ⟨hch, hd⟩)⟩

/-- Settles O42: a channel load neither writes INITIALIZED (`channelLoad_initialized`) nor reads it
(`channelLoad_setInitialized`), and on a valid channel 16-bit operands always give the block write
(`channelLoad_valid`). -/
theorem setPwmIgnoresInitialized : Obligations.SetPwmIgnoresInitialized := by
  intro s t ch on off h
  obtain ⟨hf, rfl⟩ := runCommand_next h
  refine ⟨channelLoad_initialized .., fun b => ?_, fun _ hch => ?_⟩
  · rw [exec_setPwm ch on off (s := { s with initialized := b }) hf, channelLoad_setInitialized]
    rfl
  · have hvalid : channelVal ch < Config.hw.numChannels := Nat.lt_succ_of_le hch
    have hop (x : Operand) : operandVal x ≤ 0xFFFF := Nat.le_of_lt_succ x.isLt
    rw [channelLoad_valid s hvalid (hop on) (hop off), go_state, transact_trace]

end Sys2Proof.Machine
end

section
/-! The angle-to-window converter, and how SERVO and SERVO_PULSE end (43_servo.md). -/

namespace Sys2Proof.Machine

variable {s : State}

/-- The pulse width of an angle in this hardware's numbers (43_servo.md R115). -/
theorem angleToPulse_hw (d : Nat) : angleToPulse Config.hw d = 10 * d + 600 := by
  simp [angleToPulse, show d * 1800 / 180 = 10 * d by omega]

/-- The duty tick of a pulse width in this hardware's numbers (43_servo.md R116). -/
theorem pulseToTick_hw (p : Nat) : pulseToTick Config.hw p = p * 4096 / 20000 := rfl

/-- EnsureInit goes to its end with exactly its lazy events added (40_init.md R82, R85). -/
theorem ensureInit_trace (s : State) : ∃ u, ensureInit Config.hw s = .go u ∧
    u.trace = s.trace ++ lazyInitTrace s ∧ u.initialized = true ∧ u.fault = s.fault := by
  obtain ⟨u, hens, hi, hft, -, -, -, ⟨hini, rfl⟩ | ⟨hini, -, htr⟩⟩ := ensureInit_go s
  · exact ⟨u, hens, by simp [lazyInitTrace, hini], hi, hft⟩
  · exact ⟨u, hens, by simp [lazyInitTrace, hini, htr], hi, hft⟩

/-- What a SERVO leaves to see: EnsureInit's events, then those of its tick, or DUTY_RANGE in their place
(43_servo.md R117, R119, R121). -/
theorem exec_servo_observation (ch : Byte) (angle : Operand) (hf : s.fault = 0#3) :
    ∃ t, exec (.servo ch angle) s = .next t ∧ t.observation =
      (s.trace ++ lazyInitTrace s ++ (if ch.toNat ≤ 15 ∧ 31940 ≤ angle.toNat then []
          else servoLoadTrace ch ((10 * angle.toNat + 600) * 4096 / 20000)),
        true, if ch.toNat ≤ 15 ∧ 31940 ≤ angle.toNat then 5#3 else 0#3) := by
  obtain ⟨u, hens, htr, hi, hft⟩ := ensureInit_trace s
  obtain ⟨hkept, hload⟩ := loadAngle_trace ch angle u
  exact ⟨_, exec_servo_of_ensureInit ch angle hf hens,
    by rw [State.observation, hkept, hload, loadAngle_fault, htr, hi, hft, hf]⟩

/-- What a SERVO_PULSE leaves to see: EnsureInit's events, then those of its tick (43_servo.md R118, R122). -/
theorem exec_servoPulse_observation (ch : Byte) (pulse : Operand) (hf : s.fault = 0#3) :
    ∃ t, exec (.servoPulse ch pulse) s = .next t ∧ t.observation =
      (s.trace ++ lazyInitTrace s ++ servoLoadTrace ch (pulse.toNat * 4096 / 20000), true, 0#3) := by
  obtain ⟨u, hens, htr, hi, hft⟩ := ensureInit_trace s
  obtain ⟨hkept, hload⟩ := loadPulse_trace ch pulse u
  exact ⟨_, exec_servoPulse_of_ensureInit ch pulse hf hens,
    by rw [State.observation, hkept, hload, loadPulse_fault, htr, hi, hft, hf]⟩

/-- A servo load sends nothing but a block write with on = 0 (43_servo.md R123). -/
theorem eq_wrBlk_of_mem_servoLoadTrace {ch : Byte} {v : Nat} {e : BusEvent} (he : e ∈ servoLoadTrace ch v) :
    ∃ reg lo hi, e = .wrBlk 0x40#8 reg 0x00#8 0x00#8 lo hi := by
  unfold servoLoadTrace at he
  split at he
  · exact ⟨_, _, _, List.mem_singleton.1 he⟩
  · cases he

/-- Settles O48: up to 6493 degrees the pulse width fits in the operand of a SERVO_PULSE, so that both commands load the
same tick, and no angle is wide enough for DUTY_RANGE. -/
theorem servoAndServoPulseConverge : Obligations.ServoAndServoPulseConverge := by
  refine ⟨fun s ch d hf hd => ?_, by decide, by decide⟩
  have hpulse : (BitVec.ofNat 16 (10 * d.toNat + 600)).toNat = 10 * d.toNat + 600 :=
    Nat.mod_eq_of_lt (by omega)
  have hnarrow : ¬ (ch.toNat ≤ 15 ∧ 31940 ≤ d.toNat) := by omega
  obtain ⟨t, hx, ht⟩ := exec_servo_observation ch d hf
  obtain ⟨u, hy, hu⟩ := exec_servoPulse_observation ch (BitVec.ofNat 16 (10 * d.toNat + 600)) hf
  refine ⟨t, u, hx, hy, ?_⟩
  rw [ht, hu, hpulse, if_neg hnarrow, if_neg hnarrow]

/-- Settles O53: after EnsureInit's events a servo command has those of its load or none, and a load sends on = 0
(`eq_wrBlk_of_mem_servoLoadTrace`). -/
theorem servoOnTickIsZero : Obligations.ServoOnTickIsZero := by
  intro s t ch x i hi h
  obtain ⟨hf, -⟩ := exec_effect h
  obtain rfl | rfl := hi
  · obtain ⟨u, hx, hu⟩ := exec_servo_observation ch x hf
    obtain rfl : u = t := by simpa [hx] using h
    refine ⟨_, congrArg Prod.fst hu, fun e he => ?_⟩
    split at he
    · cases he
    · exact eq_wrBlk_of_mem_servoLoadTrace he
  · obtain ⟨u, hx, hu⟩ := exec_servoPulse_observation ch x hf
    obtain rfl : u = t := by simpa [hx] using h
    exact ⟨_, congrArg Prod.fst hu, fun e he => eq_wrBlk_of_mem_servoLoadTrace he⟩

/-- Settles O49: 1800 is a multiple of 180, so that the division is exact (`angleToPulse_hw`), and an operand is below
2^16. -/
theorem angleToPulseIsLinear : Obligations.AngleToPulseIsLinear := by
  refine ⟨fun d => ⟨rfl, angleToPulse_hw d.toNat, ?_⟩, by decide, by decide⟩
  have hd := d.isLt
  rw [angleToPulse_hw]
  omega

/-- Settles O50: the conversion is the division of R116, and 655950 * 4096 is below 2^32. -/
theorem pulseToTickTruncates : Obligations.PulseToTickTruncates := by
  refine ⟨pulseToTick_hw, fun p hp => ?_, by decide, by decide⟩
  rw [pulseToTick_hw]
  omega

/-- Settles O51: the named angles are computed, the ranges follow from the linear formulas (`angleToPulse_hw`,
`pulseToTick_angleToPulse`), and from 31940 degrees on a valid channel faults (`wideDutyRaisesItsFault`). -/
theorem servoOutputRanges : Obligations.ServoOutputRanges := by
  obtain ⟨-, -, hfault⟩ := wideDutyRaisesItsFault
  refine ⟨by decide, by decide, by decide, by decide, by decide, by decide, fun d hd => ?declared, fun d => ?bits12,
    fun d => ?bits16, by decide, by decide, by decide, by decide, by decide, by decide, by decide, by decide, by decide,
    by decide, fun s ch hf hch => ⟨hfault s ch 31940#16 hf hch (by decide), hfault s ch 65535#16 hf hch (by decide)⟩⟩
  case declared =>
    rw [pulseToTick_angleToPulse, angleToPulse_hw]
    omega
  case bits12 =>
    rw [pulseToTick_angleToPulse]
    omega
  case bits16 =>
    rw [pulseToTick_angleToPulse]
    omega

/-- Settles O52: the named pulses are computed, the ranges follow from the division (`pulseToTick_hw`), and a
SERVO_PULSE never faults (`exec_servoPulse_fault`). -/
theorem servoPulseOutputRanges : Obligations.ServoPulseOutputRanges := by
  refine ⟨fun p hp => ?zero, by decide, by decide, by decide, by decide, by decide, fun p => ?bits12, by decide,
    fun s ch hf => exec_servoPulse_fault ch 65535#16 hf⟩
  case zero =>
    rw [pulseToTick_hw]
    omega
  case bits12 =>
    rw [pulseToTick_hw]
    omega

end Sys2Proof.Machine
end

section
/-! A faulted block: no command has an outcome, and no step is taken but a reset (60_exceptions.md R133). -/

namespace Sys2Proof.Machine

variable {s : State}

/-- Every command is run by `runCommand`, which a faulted block refuses (60_exceptions.md R133). -/
theorem exec_of_fault (i : Instr) (hf : s.fault ≠ 0#3) : exec i s = .fault (.blockFaulted s.fault) := by
  cases i with
  | init => exact runCommand_of_fault _ hf
  | setFreq freq => exact runCommand_of_fault _ hf
  | setPwm ch on off => exact runCommand_of_fault _ hf
  | servo ch angle => exact runCommand_of_fault _ hf
  | servoPulse ch pulse => exact runCommand_of_fault _ hf

/-- A faulted block runs no command word: one that does not decode raises nothing more (60_exceptions.md R133). -/
theorem execWord_of_fault (w : CmdWord) (hf : s.fault ≠ 0#3) : execWord w s = .fault (.blockFaulted s.fault) := by
  unfold execWord
  split
  · exact exec_of_fault _ hf
  · exact runCommand_of_fault _ hf

/-- A faulted block does not even wait (60_exceptions.md R133). -/
theorem idle_of_fault (hf : s.fault ≠ 0#3) : idle s = .fault (.blockFaulted s.fault) := by
  simp [idle, unlessFaulted, hf]

/-- A faulted block steps by a reset only: with no input it does not wait, and a command word it does not run
(60_exceptions.md R133, R136). -/
theorem step_of_fault (hf : s.fault ≠ 0#3) (hr : nextInput s ≠ some .reset) :
    step s = .fault (.blockFaulted s.fault) := by
  unfold step
  split
  · exact idle_of_fault hf
  · exact absurd ‹_› hr
  · exact execWord_of_fault _ (s := dropInput s) hf

/-- A run in a faulted state has not ended successfully, however its last command ended (70_reset_and_hazards.md
R162). -/
theorem Run.endedWell_of_fault (last : Option CommandResult) (hf : s.fault ≠ 0#3) :
    Run.endedWell ⟨s, last⟩ = false := by
  rw [← Bool.not_eq_true, Run.endedWell_iff]
  rintro ⟨-, -, h⟩
  exact hf h

/-- Settles O12: no step (`step_of_fault`), no outcome of a command (`exec_of_fault`) and no successful end
(`Run.endedWell_of_fault`). -/
theorem faultedBlockTakesNoStep : Obligations.FaultedBlockTakesNoStep := fun _ hf =>
  ⟨step_of_fault hf, fun i => exec_of_fault i hf, fun last => Run.endedWell_of_fault last hf⟩

end Sys2Proof.Machine
end

section
/-! INITIALIZED told from the trace of a power-up session (70_reset_and_hazards.md R152). -/

namespace Sys2Proof.Machine

/-- One trace after another holds at least the starts of both; a start that straddles the two only adds to them. -/
theorem initStarts_add_le_append (xs ys : List BusEvent) :
    initStarts xs + initStarts ys ≤ initStarts (xs ++ ys) := by
  rw [initStarts_append]
  exact Nat.le_add_right ..

/-- A trace that holds a complete InitSeq trace holds the start of that one (40_init.md R84). -/
theorem HasInitSeq.initStarts_pos {tr : List BusEvent} (h : HasInitSeq tr) : 0 < initStarts tr := by
  obtain ⟨pre, m, post, rfl⟩ := h
  have hpost := initStarts_add_le_append (pre ++ initTrace m) post
  have hpre := initStarts_add_le_append pre (initTrace m)
  rw [initStarts_initTrace] at hpre
  omega

/-- A block whose session has begun InitSeq is initialised (70_reset_and_hazards.md R151). -/
theorem SessionInv.initialized_of_initStarts_pos {s : State} (hs : SessionInv s) (h : 0 < initStarts s.trace) :
    s.initialized = true := by
  by_contra hini
  rw [hs.init_starts, if_neg hini] at h
  exact Nat.lt_irrefl 0 h

/-- Settles O22: an initialised block's trace holds a complete InitSeq trace by the invariant; conversely such a trace
begins InitSeq (`HasInitSeq.initStarts_pos`), which the session of a block not initialised never has. -/
theorem initializedExactlyWhenInitSeqEmitted : Obligations.InitializedExactlyWhenInitSeqEmitted := fun _ hs =>
  ⟨hs.init_complete, fun htrace => hs.initialized_of_initStarts_pos htrace.initStarts_pos⟩

end Sys2Proof.Machine
end

section
/-! The decoder and the encoder are each other's inverse, and which operands the assembler takes (30_encoding.md). -/

namespace Sys2Proof.Machine

/-- Settles O1: `decode_encode`, by the fields of each command. -/
theorem decodeOfEncodeIsTheCommand : Obligations.DecodeOfEncodeIsTheCommand := decode_encode

/-- Settles O2: a word that decodes has the fields of its command (`decode_ok_iff`), and its fields are all of it. -/
theorem encodeOfDecodeIsTheWord : Obligations.EncodeOfDecodeIsTheWord := by
  intro w i h
  rw [encode, ← decode_ok_iff.1 h, CmdFields.toWord_ofWord]

/-- A number is taken as a field exactly when it fits (30_encoding.md R69). -/
theorem fitField_eq_some_iff {n v : Nat} {x : BitVec n} :
    fitField n v = some x ↔ v < 2 ^ n ∧ x = BitVec.ofNat n v := by
  rw [fitField, Option.ite_none_right_eq_some, Option.some_inj, eq_comm (a := x)]

/-- Settles O8: the list has the mnemonic's length or it is refused, and each operand is a field that has to fit
(`fitField_eq_some_iff`). -/
theorem assemblerTakesOperandsThatFit : Obligations.AssemblerTakesOperandsThatFit := by
  intro ops i
  refine ⟨?init, ?setFreq, ?setPwm, ?servo, ?servoPulse⟩
  case init =>
    match ops with
    | [] => simp [assemble, eq_comm]
    | _ :: _ => simp [assemble]
  case setFreq =>
    match ops with
    | [] | _ :: _ :: _ => simp [assemble]
    | [f] => simp [assemble, fitField_eq_some_iff, Nat.lt_succ_iff, eq_comm (b := i)]
  case setPwm =>
    match ops with
    | [] | [_] | [_, _] | _ :: _ :: _ :: _ :: _ => simp [assemble]
    | [ch, on, off] =>
      simp [assemble, Option.bind_eq_some_iff, fitField_eq_some_iff, Nat.lt_succ_iff, eq_comm (b := i), and_assoc]
  case servo =>
    match ops with
    | [] | [_] | _ :: _ :: _ :: _ => simp [assemble]
    | [ch, angle] =>
      simp [assemble, Option.bind_eq_some_iff, fitField_eq_some_iff, Nat.lt_succ_iff, eq_comm (b := i), and_assoc]
  case servoPulse =>
    match ops with
    | [] | [_] | _ :: _ :: _ :: _ => simp [assemble]
    | [ch, pulse] =>
      simp [assemble, Option.bind_eq_some_iff, fitField_eq_some_iff, Nat.lt_succ_iff, eq_comm (b := i), and_assoc]

end Sys2Proof.Machine
end

section
/-! What the transport reports and how long a wait lasts reach nothing else (20_memory.md R49, 60_exceptions.md
R140): every part of a command does the same whether or not they are forgotten before it. -/

namespace Sys2Proof.Machine

variable {s s' t : State}

@[simp] theorem forgetTransport_initialized (s : State) : s.forgetTransport.initialized = s.initialized := rfl
@[simp] theorem forgetTransport_fault (s : State) : s.forgetTransport.fault = s.fault := rfl

/-- How a part of a command ends, without what the transport and the clock decide. -/
def Flow.forgetTransport : Flow → Flow
  | .go s => .go s.forgetTransport
  | .ended s => .ended s.forgetTransport

/-- The outcome of a step without what the transport and the clock decide. -/
def forgetOutcome : Host.Outcome State Fault Refusal → Host.Outcome State Fault Refusal
  | .next s => .next s.forgetTransport
  | .fault r => .fault r
  | .refused r => .refused r

/-- The update does the same to the rest of the state when the transport's part is forgotten before it. -/
def BlindUpdate (f : State → State) : Prop := ∀ s, (f s).forgetTransport = (f s.forgetTransport).forgetTransport

/-- The part of a command does the same to the rest of the state, and ends the same way, when the transport's part is
forgotten before it. -/
def BlindPart (m : State → Flow) : Prop := ∀ s, (m s).forgetTransport = (m s.forgetTransport).forgetTransport

theorem BlindUpdate.congr {f : State → State} (hf : BlindUpdate f) (h : s.forgetTransport = s'.forgetTransport) :
    (f s).forgetTransport = (f s').forgetTransport := by
  rw [hf s, hf s', h]

theorem BlindPart.congr {m : State → Flow} (hm : BlindPart m) (h : s.forgetTransport = s'.forgetTransport) :
    (m s).forgetTransport = (m s').forgetTransport := by
  rw [hm s, hm s', h]

/-- A part that begins with an update. -/
theorem BlindPart.after {m : State → Flow} {f : State → State} (hm : BlindPart m) (hf : BlindUpdate f) :
    BlindPart fun s => m (f s) := fun s => hm.congr (hf s)

theorem forgetTransport_andThen_congr {k : State → Flow} (hk : BlindPart k) {m m' : Flow}
    (h : m.forgetTransport = m'.forgetTransport) :
    (m.andThen k).forgetTransport = (m'.andThen k).forgetTransport := by
  match m, m', h with
  | .go _, .go _, h => exact hk.congr (Flow.go.inj h)
  | .ended _, .ended _, h => exact h

theorem forgetTransport_finally_congr {f : State → State} (hf : BlindUpdate f) {m m' : Flow}
    (h : m.forgetTransport = m'.forgetTransport) :
    (m.finally f).forgetTransport = (m'.finally f).forgetTransport := by
  match m, m', h with
  | .go _, .go _, h => exact congrArg Flow.go (hf.congr (Flow.go.inj h))
  | .ended _, .ended _, h => exact congrArg Flow.ended (hf.congr (Flow.ended.inj h))

theorem forgetTransport_state_congr {m m' : Flow} (h : m.forgetTransport = m'.forgetTransport) :
    m.state.forgetTransport = m'.state.forgetTransport := by
  match m, m', h with
  | .go _, .go _, h => exact Flow.go.inj h
  | .ended _, .ended _, h => exact Flow.ended.inj h

theorem BlindPart.andThen {m k : State → Flow} (hm : BlindPart m) (hk : BlindPart k) :
    BlindPart fun s => (m s).andThen k := fun s => forgetTransport_andThen_congr hk (hm s)

theorem BlindPart.finally {m : State → Flow} {f : State → State} (hm : BlindPart m) (hf : BlindUpdate f) :
    BlindPart fun s => (m s).finally f := fun s => forgetTransport_finally_congr hf (hm s)

theorem blindPart_raise (c : FaultCause) : BlindPart (raise c) := fun _ => rfl

theorem blindPart_channelLoad (c : Config) (ch on off : Nat) : BlindPart (channelLoad c ch on off) := by
  intro s
  unfold channelLoad
  split
  · split <;> rfl
  · rfl

theorem blindPart_setFreqSeq (c : Config) (f : Nat) : BlindPart (setFreqSeq c f) := by
  intro s
  unfold setFreqSeq
  split
  · rfl
  · split <;> rfl

theorem blindPart_loadChannels (c : Config) (chs : List Nat) : BlindPart (loadChannels c chs) := by
  induction chs with
  | nil => exact fun _ => rfl
  | cons ch chs ih => exact BlindPart.andThen (blindPart_channelLoad c ch _ _) ih

theorem blindPart_initSeq (c : Config) : BlindPart (initSeq c) := by
  have hbegin : BlindUpdate (busWrite c.devAddr c.regMode1 c.mode1Init) := fun _ => rfl
  have hend : BlindPart fun s => .go (markInitialized s) := fun _ => rfl
  exact ((blindPart_setFreqSeq c _).after hbegin).andThen
    ((blindPart_channelLoad c _ _ _).andThen ((blindPart_loadChannels c _).andThen hend))

theorem blindPart_ensureInit (c : Config) : BlindPart (ensureInit c) := by
  intro s
  unfold ensureInit
  rw [forgetTransport_initialized]
  split
  · rfl
  · exact blindPart_initSeq c s

/-- The load reads DUTY only after it has written it. -/
theorem blindPart_loadPulse (c : Config) (ch pulse : Nat) : BlindPart (loadPulse c ch pulse) := by
  have hlatch : BlindUpdate (latchDuty (BitVec.ofNat 18 (pulseToTick c pulse))) := fun _ => rfl
  have hrelease : BlindUpdate releaseDuty := fun _ => rfl
  exact ((blindPart_channelLoad c ch 0 _).after hlatch).finally hrelease

/-- The load reads PULSE only after it has written it. -/
theorem blindPart_loadAngle (c : Config) (ch angle : Nat) : BlindPart (loadAngle c ch angle) := by
  have hlatch : BlindUpdate (latchPulse (BitVec.ofNat 20 (angleToPulse c angle))) := fun _ => rfl
  have hrelease : BlindUpdate releasePulse := fun _ => rfl
  exact ((blindPart_loadPulse c ch _).after hlatch).finally hrelease

/-- A command reads no more of the state than its body does, and FAULT. -/
theorem forgetOutcome_runCommand {body : State → Flow} (hb : BlindPart body) (s : State) :
    forgetOutcome (runCommand body s) = forgetOutcome (runCommand body s.forgetTransport) := by
  by_cases hf : s.fault = 0#3
  · rw [runCommand_of_no_fault body hf, runCommand_of_no_fault body (s := s.forgetTransport) hf]
    exact congrArg Host.Outcome.next (forgetTransport_state_congr (hb s))
  · rw [runCommand_of_fault body hf, runCommand_of_fault body (s := s.forgetTransport) hf]
    rfl

theorem forgetOutcome_exec (i : Instr) (s : State) :
    forgetOutcome (exec i s) = forgetOutcome (exec i s.forgetTransport) := by
  cases i with
  | init => exact forgetOutcome_runCommand (blindPart_ensureInit _) s
  | setFreq freq => exact forgetOutcome_runCommand (blindPart_setFreqSeq _ _) s
  | setPwm ch on off => exact forgetOutcome_runCommand (blindPart_channelLoad _ _ _ _) s
  | servo ch angle =>
    exact forgetOutcome_runCommand ((blindPart_ensureInit _).andThen (blindPart_loadAngle _ _ _)) s
  | servoPulse ch pulse =>
    exact forgetOutcome_runCommand ((blindPart_ensureInit _).andThen (blindPart_loadPulse _ _ _)) s

theorem forgetOutcome_execWord (w : CmdWord) (s : State) :
    forgetOutcome (execWord w s) = forgetOutcome (execWord w s.forgetTransport) := by
  unfold execWord
  split
  · exact forgetOutcome_exec _ s
  · exact forgetOutcome_runCommand (blindPart_raise _) s

theorem forgetOutcome_idle (s : State) : forgetOutcome (idle s) = forgetOutcome (idle s.forgetTransport) := by
  unfold idle unlessFaulted notFaulted
  rw [forgetTransport_fault]
  split <;> rfl

/-- A step does the same, and ends the same way, when the transport's part is forgotten before it. -/
theorem forgetOutcome_step (s : State) : forgetOutcome (step s) = forgetOutcome (step s.forgetTransport) := by
  have hnext : nextInput s.forgetTransport = nextInput s := rfl
  unfold step
  rw [hnext]
  split
  · exact forgetOutcome_idle s
  · rfl
  · exact forgetOutcome_execWord _ (dropInput s)

theorem eq_next_of_forgetOutcome {o : Host.Outcome State Fault Refusal}
    (h : forgetOutcome o = .next t.forgetTransport) : ∃ t', o = .next t' ∧ t.forgetTransport = t'.forgetTransport := by
  match o, h with
  | .next t', h => exact ⟨t', rfl, (Host.Outcome.next.inj h).symm⟩

/-- Settles O19: two states that differ only in the transport's part are one state once it is forgotten, and a step does
the same from there as from either (`forgetOutcome_step`). -/
theorem transportOutcomesNeverMatter : Obligations.TransportOutcomesNeverMatter := by
  intro s s' t hs h
  apply eq_next_of_forgetOutcome
  rw [forgetOutcome_step s', ← hs, ← forgetOutcome_step s, h]
  rfl

/-- Settles O57: the trace, INITIALIZED, FAULT and the host's inputs stay when the transport's part is forgotten. -/
theorem runEndSaysNothingOfTheTransport : Obligations.RunEndSaysNothingOfTheTransport := by
  intro s s' last h
  have hended (s : State) : Run.endedWell ⟨s, last⟩ = Run.endedWell ⟨s.forgetTransport, last⟩ := rfl
  have hseen (s : State) : s.observation = s.forgetTransport.observation := rfl
  exact ⟨by rw [hended s, hended s', h], by rw [hseen s, hseen s', h]⟩

end Sys2Proof.Machine
end

section
/-! The invariant of a power-up session, kept by every step, and InitSeq standing once in its trace
(70_reset_and_hazards.md R151, R152). -/

namespace Sys2Proof.Machine

variable {s t : State}

/-- A fresh block's trace is empty, so that nothing is begun in it. -/
theorem sessionInv_of_fresh (hf : s.fault = 0#3) (hi : s.initialized = false) (htr : s.trace = []) : SessionInv s where
  fault_legal := by simp [hf]
  events_allowed := by simp [htr]
  init_starts := by simp [htr, hi, initStarts]
  init_complete := by simp [hi]
  trace_settled := by simp [htr]

/-- Settles O20. -/
theorem sessionInvariantAtReset : Obligations.SessionInvariantAtReset := sessionInv_of_fresh rfl rfl rfl

theorem HasInitSeq.append {tr : List BusEvent} (h : HasInitSeq tr) (evs : List BusEvent) : HasInitSeq (tr ++ evs) := by
  obtain ⟨pre, m, post, rfl⟩ := h
  exact ⟨pre, m, post ++ evs, List.append_assoc ..⟩

/-- Events that begin no InitSeq keep the session, INITIALIZED being kept too. -/
theorem SessionInv.append_of_no_start {evs : List BusEvent} (hs : SessionInv s) (hft : t.fault.toNat ≤ 5)
    (hi : t.initialized = s.initialized) (htr : t.trace = s.trace ++ evs) (hall : ∀ e ∈ evs, e.allowed = true)
    (hstarts : initStarts evs = 0) (hend : evs.getLast? ≠ some (.wr 0x40#8 0x00#8 0x00#8)) : SessionInv t where
  fault_legal := hft
  events_allowed := by rw [htr]; exact List.forall_mem_append.2 ⟨hs.events_allowed, hall⟩
  init_starts := by rw [htr, initStarts_append_settled hs.trace_settled, hstarts, hi, hs.init_starts, Nat.add_zero]
  init_complete := fun h => by rw [htr]; exact (hs.init_complete (hi ▸ h)).append evs
  trace_settled := by rw [htr]; exact getLast?_append_ne hs.trace_settled hend

/-- InitSeq, and events after it that begin no other, take a session that is not initialised to an initialised one. -/
theorem SessionInv.append_initSeq {evs : List BusEvent} {m : Byte} (hs : SessionInv s) (hft : t.fault.toNat ≤ 5)
    (hi : s.initialized = false) (hi' : t.initialized = true) (htr : t.trace = s.trace ++ initTrace m ++ evs)
    (hall : ∀ e ∈ evs, e.allowed = true) (hstarts : initStarts evs = 0)
    (hend : evs.getLast? ≠ some (.wr 0x40#8 0x00#8 0x00#8)) : SessionInv t where
  fault_legal := hft
  events_allowed := by
    rw [htr]
    exact List.forall_mem_append.2 ⟨List.forall_mem_append.2 ⟨hs.events_allowed, initTrace_allowed m⟩, hall⟩
  init_starts := by
    rw [htr, initStarts_append_settled (getLast?_append_ne hs.trace_settled (initTrace_settled m)),
      initStarts_append_settled hs.trace_settled, hs.init_starts, hi, hi', initStarts_initTrace, hstarts]
    rfl
  init_complete := fun _ => ⟨s.trace, m, evs, htr⟩
  trace_settled := by
    rw [htr]
    exact getLast?_append_ne (getLast?_append_ne hs.trace_settled (initTrace_settled m)) hend

/-- Every command keeps the session. -/
theorem SessionInv.effect (hs : SessionInv s) (h : Effect s t) : SessionInv t := by
  have hwindow {n on off : Nat} (hn : n < 16) : ∀ e ∈ [windowEvent Config.hw n on off], e.allowed = true :=
    List.forall_mem_singleton.2 (windowEvent_allowed hn)
  have hlegal (h0 : t.fault = 0#3) : t.fault.toNat ≤ 5 := by simp [h0]
  obtain ⟨-, -, ⟨hi, hadd⟩ | ⟨hi, hi', m, hadd⟩⟩ := h
  · obtain ⟨htr, hft⟩ | ⟨hft, n, on, off, hn, htr⟩ | ⟨hft, p, m, htr⟩ := hadd
    · exact hs.append_of_no_start (evs := []) hft hi (by simp [htr]) (by simp) rfl (by simp)
    · exact hs.append_of_no_start (hlegal hft) hi htr (hwindow hn) (initStarts_windowEvent n on off)
        (windowEvent_settled n on off)
    · exact hs.append_of_no_start (hlegal hft) hi htr (freqTrace_allowed p m) (initStarts_freqTrace p m)
        (freqTrace_settled p m)
  · obtain ⟨htr, hft⟩ | ⟨hft, n, on, off, hn, htr⟩ := hadd
    · exact hs.append_initSeq (evs := []) (m := m) hft hi hi' (by simp [htr]) (by simp) rfl (by simp)
    · exact hs.append_initSeq (hlegal hft) hi hi' htr (hwindow hn) (initStarts_windowEvent n on off)
        (windowEvent_settled n on off)

/-- The session invariant speaks of INITIALIZED, FAULT and the trace, not of the host's inputs. -/
theorem SessionInv.dropInput (hs : SessionInv s) : SessionInv (dropInput s) :=
  ⟨hs.fault_legal, hs.events_allowed, hs.init_starts, hs.init_complete, hs.trace_settled⟩

/-- Settles O21: a wait changes nothing, a reset gives a fresh block, a word that does not decode only raises its fault,
and a command has one of the effects of `exec_effect`. -/
theorem stepKeepsTheSessionInvariant : Obligations.StepKeepsTheSessionInvariant := by
  intro s t hs h
  obtain ⟨-, -, rfl⟩ | ⟨rest, -, rfl⟩ | ⟨w, rest, d, -, -, hf, rfl⟩ | ⟨w, rest, i, -, -, hx⟩ := step_next_cases h
  · exact hs
  · exact sessionInv_of_fresh rfl rfl rfl
  · exact hs.dropInput.effect (effect_raise _ hf)
  · exact hs.dropInput.effect (exec_effect hx)

/-- The write and the read that InitSeq begins with are one start. -/
theorem initStarts_initTrace_append (m : Byte) (post : List BusEvent) :
    initStarts (initTrace m ++ post) = 1 + initStarts (initTrace m ++ post).tail := rfl

/-- An InitSeq that begins strictly inside the events from another's first one on is a second start. -/
theorem two_le_initStarts_of_two_initSeqs {x : BusEvent} {mid post post' : List BusEvent} {m m' : Byte}
    (h : initTrace m ++ post = x :: mid ++ (initTrace m' ++ post')) : 2 ≤ initStarts (initTrace m ++ post) := by
  have hinner : HasInitSeq (mid ++ (initTrace m' ++ post')) := ⟨mid, m', post', (List.append_assoc ..).symm⟩
  have hpos := hinner.initStarts_pos
  rw [initStarts_initTrace_append, h, List.cons_append, List.tail_cons]
  omega

/-- In a trace in which InitSeq is begun at most once, no InitSeq stands after another. -/
theorem initSeq_place_le {pre post pre' post' : List BusEvent} {m m' : Byte}
    (hstarts : initStarts (pre ++ (initTrace m ++ post)) ≤ 1)
    (h : pre ++ (initTrace m ++ post) = pre' ++ (initTrace m' ++ post')) : pre'.length ≤ pre.length := by
  by_contra hlt
  have hle := initStarts_add_le_append pre (initTrace m ++ post)
  obtain ⟨mid, rfl, hmid⟩ | ⟨mid, rfl, -⟩ := List.append_eq_append_iff.1 h
  · cases mid with
    | nil => simp at hlt
    | cons x mid =>
      have htwo := two_le_initStarts_of_two_initSeqs hmid
      omega
  · simp at hlt

/-- The byte of the MODE1 read is the second event's. -/
theorem initTrace_inj {m m' : Byte} (h : initTrace m = initTrace m') : m = m' := by
  simp only [initTrace, List.cons.injEq, BusEvent.rd.injEq] at h
  obtain ⟨-, ⟨-, -, hm⟩, -⟩ := h
  exact hm

/-- Settles O23: of two places at which InitSeq stands neither can come before the other, the session having begun it at
most once (`initSeq_place_le`), and at one place the trace reads in one way. -/
theorem initSeqStandsOnceInTheTrace : Obligations.InitSeqStandsOnceInTheTrace := by
  intro s pre post pre' post' m m' hs htr htr'
  have hstarts : initStarts s.trace ≤ 1 := by
    rw [hs.init_starts]
    split <;> omega
  rw [List.append_assoc] at htr htr'
  have hpost := initSeq_place_le (htr ▸ hstarts) (htr.symm.trans htr')
  have hpre := initSeq_place_le (htr' ▸ hstarts) (htr'.symm.trans htr)
  obtain ⟨rfl, hrest⟩ := List.append_inj (htr.symm.trans htr') (Nat.le_antisymm hpre hpost)
  obtain ⟨htrace, rfl⟩ := List.append_inj hrest rfl
  exact ⟨rfl, initTrace_inj htrace, rfl⟩

end Sys2Proof.Machine
end

section
/-! The record of the transport and the clock, kept in step with the trace by every part of a command (20_memory.md R49,
60_exceptions.md R140). -/

namespace Sys2Proof.Machine

variable {s t : State}

/-- The record invariant reads the trace and the two records, nothing else. -/
theorem RecordInv.congr (hs : RecordInv s) (htr : t.trace = s.trace) (hack : t.acked = s.acked)
    (hw : t.waits = s.waits) : RecordInv t :=
  ⟨by rw [htr, hack, hs.reports], by rw [htr, hw, hs.lengths], by rw [hw]; exact hs.settled⟩

/-- A block with an empty trace and empty records, as a reset leaves it. -/
theorem recordInv_of_empty (htr : s.trace = []) (hack : s.acked = []) (hw : s.waits = []) : RecordInv s :=
  ⟨by rw [htr, hack]; rfl, by rw [htr, hw]; rfl, by simp [hw]⟩

/-- Settles O24. -/
theorem recordInvariantAtReset : Obligations.RecordInvariantAtReset := recordInv_of_empty rfl rfl rfl

/-- A transaction adds one event and one report. -/
theorem RecordInv.transact {e : BusEvent} (hs : RecordInv s) (he : e.isTransaction = true) :
    RecordInv (transact e s) where
  reports := by simp [transactionCount, he, hs.reports]
  lengths := by simp [waitCount, he, hs.lengths]
  settled := hs.settled

/-- A wait of 5000 microseconds or more adds one event and one length. -/
theorem RecordInv.delay {us : Nat} (hs : RecordInv s) (hus : 5000 ≤ us) : RecordInv (delay us s) where
  reports := by simp [transactionCount, BusEvent.isTransaction, hs.reports]
  lengths := by simp [waitCount, BusEvent.isTransaction, hs.lengths]
  settled := List.forall_mem_append.2 ⟨hs.settled, List.forall_mem_singleton.2 (Nat.le_add_right_of_le hus)⟩

theorem RecordInv.enterFault (hs : RecordInv s) (c : FaultCause) : RecordInv (enterFault c s) := hs.congr rfl rfl rfl
theorem RecordInv.latchPresc (hs : RecordInv s) (p : BitVec 8) : RecordInv (latchPresc p s) := hs.congr rfl rfl rfl
theorem RecordInv.latchPulse (hs : RecordInv s) (p : BitVec 20) : RecordInv (latchPulse p s) := hs.congr rfl rfl rfl
theorem RecordInv.latchDuty (hs : RecordInv s) (d : BitVec 18) : RecordInv (latchDuty d s) := hs.congr rfl rfl rfl
theorem RecordInv.releasePulse (hs : RecordInv s) : RecordInv (releasePulse s) := hs.congr rfl rfl rfl
theorem RecordInv.releaseDuty (hs : RecordInv s) : RecordInv (releaseDuty s) := hs.congr rfl rfl rfl
theorem RecordInv.markInitialized (hs : RecordInv s) : RecordInv (markInitialized s) := hs.congr rfl rfl rfl
theorem RecordInv.dropInput (hs : RecordInv s) : RecordInv (dropInput s) := hs.congr rfl rfl rfl

/-- The part of a command keeps the record in step with the trace. -/
def KeepsRecord (m : State → Flow) : Prop := ∀ s, RecordInv s → RecordInv (m s).state

/-- The next part of a command runs only where the first has gone on. -/
theorem RecordInv.andThen {m : Flow} {k : State → Flow} (hm : RecordInv m.state) (hk : KeepsRecord k) :
    RecordInv (m.andThen k).state := by
  cases m with
  | go u => exact hk u hm
  | ended u => exact hm

theorem KeepsRecord.andThen {m k : State → Flow} (hm : KeepsRecord m) (hk : KeepsRecord k) :
    KeepsRecord fun s => (m s).andThen k := fun s hs => (hm s hs).andThen hk

/-- The frequency sequence's five transactions and its one wait. -/
theorem RecordInv.freqBusSeq (hs : RecordInv s) : RecordInv (freqBusSeq Config.hw s) := by
  have hread := (hs.transact (e := .rd 0x40#8 0x00#8 (nextRead s)) rfl).congr
    (t := busReadOldmode 0x40#8 0x00#8 s) rfl rfl rfl
  have hrestore := ((hread.transact (e := .wr 0x40#8 0x00#8 (nextRead s ||| 0x10#8)) rfl).transact
    (e := .wr 0x40#8 0xFE#8 s.presc) rfl).transact (e := .wr 0x40#8 0x00#8 (nextRead s)) rfl
  have hwake := (hrestore.delay (le_refl 5000)).transact (e := .wr 0x40#8 0x00#8 (nextRead s ||| 0xA1#8)) rfl
  exact hwake.congr rfl rfl rfl

theorem keepsRecord_setFreqSeq (f : Nat) : KeepsRecord (setFreqSeq Config.hw f) := by
  intro s hs
  obtain ⟨-, e⟩ | ⟨-, -, e⟩ | ⟨-, -, e⟩ := setFreqSeq_cases Config.hw f s <;> rw [e]
  · exact hs.enterFault _
  · exact hs.enterFault _
  · exact RecordInv.freqBusSeq (hs.latchPresc _)

theorem keepsRecord_channelLoad (c : Config) (ch on off : Nat) : KeepsRecord (channelLoad c ch on off) := by
  intro s hs
  obtain ⟨-, e⟩ | ⟨-, -, e⟩ | ⟨-, -, -, e⟩ := channelLoad_cases c ch on off s <;> rw [e]
  · exact hs
  · exact hs.enterFault _
  · exact hs.transact rfl

theorem keepsRecord_loadChannels (c : Config) (chs : List Nat) : KeepsRecord (loadChannels c chs) := by
  induction chs with
  | nil => exact fun _ hs => hs
  | cons ch chs ih => exact fun s hs => (keepsRecord_channelLoad c ch _ _ s hs).andThen ih

theorem keepsRecord_initSeq : KeepsRecord (initSeq Config.hw) := by
  intro s hs
  have hfreq := keepsRecord_setFreqSeq Config.hw.defaultFreqHz _ (hs.transact (e := .wr 0x40#8 0x00#8 0x00#8) rfl)
  have hlast : KeepsRecord fun s => .go (markInitialized s) := fun _ hs => hs.markInitialized
  exact hfreq.andThen ((keepsRecord_channelLoad Config.hw _ _ _).andThen
    ((keepsRecord_loadChannels Config.hw _).andThen hlast))

theorem keepsRecord_ensureInit : KeepsRecord (ensureInit Config.hw) := by
  intro s hs
  unfold ensureInit
  split
  · exact hs
  · exact keepsRecord_initSeq s hs

theorem finally_state (m : Flow) (f : State → State) : (m.finally f).state = f m.state := by cases m <;> rfl

theorem keepsRecord_loadPulse (c : Config) (ch pulse : Nat) : KeepsRecord (loadPulse c ch pulse) := by
  intro s hs
  rw [loadPulse, finally_state]
  exact RecordInv.releaseDuty (keepsRecord_channelLoad c ch _ _ _ (hs.latchDuty _))

theorem keepsRecord_loadAngle (c : Config) (ch angle : Nat) : KeepsRecord (loadAngle c ch angle) := by
  intro s hs
  rw [loadAngle, finally_state]
  exact RecordInv.releasePulse (keepsRecord_loadPulse c ch _ _ (hs.latchPulse _))

theorem RecordInv.runCommand {body : State → Flow} (hs : RecordInv s) (hb : KeepsRecord body)
    (h : runCommand body s = .next t) : RecordInv t := by
  obtain ⟨-, rfl⟩ := runCommand_next h
  exact hb s hs

/-- Every command keeps the record in step with the trace. -/
theorem RecordInv.exec {i : Instr} (hs : RecordInv s) (h : exec i s = .next t) : RecordInv t := by
  cases i with
  | init => exact hs.runCommand keepsRecord_ensureInit h
  | setFreq freq => exact hs.runCommand (keepsRecord_setFreqSeq _) h
  | setPwm ch on off => exact hs.runCommand (keepsRecord_channelLoad _ _ _ _) h
  | servo ch angle => exact hs.runCommand (keepsRecord_ensureInit.andThen (keepsRecord_loadAngle _ _ _)) h
  | servoPulse ch pulse => exact hs.runCommand (keepsRecord_ensureInit.andThen (keepsRecord_loadPulse _ _ _)) h

/-- Settles O25: a wait and a word that does not decode leave trace and records alone, a reset empties them, and a
command keeps them in step (`RecordInv.exec`). -/
theorem stepKeepsTheRecordInvariant : Obligations.StepKeepsTheRecordInvariant := by
  intro s t hs h
  obtain ⟨-, -, rfl⟩ | ⟨rest, -, rfl⟩ | ⟨w, rest, d, -, -, -, rfl⟩ | ⟨w, rest, i, -, -, hx⟩ := step_next_cases h
  · exact hs
  · exact recordInv_of_empty rfl rfl rfl
  · exact hs.dropInput.enterFault _
  · exact hs.dropInput.exec hx

end Sys2Proof.Machine
end

section
/-! INIT and SET_FREQ run whole: their events, what they leave alone and the settle wait (40_init.md,
41_prescale.md). -/

namespace Sys2Proof.Machine

variable {s t : State} {f : Operand}

/-- EnsureInit of a block not initialised is InitSeq (40_init.md R82). -/
theorem ensureInit_of_not_initialized (hi : s.initialized = false) :
    ensureInit Config.hw s = initSeq Config.hw s := by
  simp [ensureInit, hi]

/-- Settles O26: EnsureInit of a block not initialised is InitSeq, whose effect is `initSeq_go`. -/
theorem initRunsTheInitSequence : Obligations.InitRunsTheInitSequence := by
  intro s hf hi
  obtain ⟨t, hseq, htr, hini, hft, hpulse, hduty, hpend, hreads, -, hack, us, -, hw⟩ := initSeq_go s
  exact ⟨t, exec_init_of_ensureInit hf ((ensureInit_of_not_initialized hi).trans hseq), htr, hini, hft, hpulse, hduty,
    hpend, hreads, hack, by simp [hw]⟩

/-- Settles O32: dividing by one number and then by another is dividing by their product. -/
theorem prescaleTruncatesOnce : Obligations.PrescaleTruncatesOnce := by
  intro f _
  rw [prescale, Nat.div_div_eq_div_mul]
  rfl

/-- The byte latched as the prescale of a legal frequency (41_prescale.md R90, R94). -/
theorem prescale_byte {f : Nat} (hlo : 24 ≤ f) (hhi : f ≤ 6103) :
    BitVec.ofInt 8 (prescale Config.hw f) = BitVec.ofNat 8 (6103 / f - 1) := by
  have hq : 1 ≤ 6103 / f := (Nat.le_div_iff_mul_le (by omega)).2 (by omega)
  have hcast : ((6103 / f : Nat) : Int) - 1 = ((6103 / f - 1 : Nat) : Int) := by omega
  rw [prescale_hw, hcast, BitVec.ofInt_natCast]

/-- On a legal frequency SET_FREQ latches its prescale and runs the bus sequence (41_prescale.md R95). -/
theorem exec_setFreq_of_legal (hf : s.fault = 0#3) (hlo : 24 ≤ f.toNat) (hhi : f.toNat ≤ 6103) :
    exec (.setFreq f) s =
      .next (freqBusSeq Config.hw (latchPresc (BitVec.ofNat 8 (6103 / f.toNat - 1)) s)) := by
  have hfits := prescaleFits_iff.2 ((prescale_inRange_iff (by omega)).2 ⟨hlo, hhi⟩)
  rw [exec_setFreq_of_fits hf hfits, prescale_byte hlo hhi]

/-- Settles O29: the events are those of the bus sequence (`freqBusSeq_trace`), which writes OLDMODE and PRESC only. -/
theorem setFreqRunsItsSequence : Obligations.SetFreqRunsItsSequence := by
  intro s f hf hlo hhi
  refine ⟨_, exec_setFreq_of_legal hf hlo hhi, ?_⟩
  simp [freqBusSeq_trace]

/-- Settles O35: the next read is the head of the coming bytes (`nextRead_cons`). -/
theorem anyByteCanBeRead : Obligations.AnyByteCanBeRead := by
  intro s f m more hf hlo hhi hreads
  obtain ⟨t, hx, htr, -, -, -, -, -, hleft⟩ := setFreqRunsItsSequence s f hf hlo hhi
  rw [nextRead_cons s hreads] at htr
  exact ⟨t, _, hx, htr, by rw [hleft, hreads, List.tail_cons]⟩

/-- Settles O36: the bus sequence of SET_FREQ (`freqBusSeq_waits`) and InitSeq (`initSeq_go`) each add the one settle
wait. -/
theorem settleWaitIsLongEnough : Obligations.SettleWaitIsLongEnough := by
  refine ⟨fun s f hf hlo hhi => ?setFreq, fun s hf hi => ?init⟩
  case setFreq =>
    obtain ⟨us, hus, hw⟩ := freqBusSeq_waits (latchPresc (BitVec.ofNat 8 (6103 / f.toNat - 1)) s)
    exact ⟨_, us, exec_setFreq_of_legal hf hlo hhi, hw, hus⟩
  case init =>
    obtain ⟨t, hseq, -, -, -, -, -, -, -, -, -, us, hus, hw⟩ := initSeq_go s
    exact ⟨t, us, exec_init_of_ensureInit hf ((ensureInit_of_not_initialized hi).trans hseq), hw, hus⟩

/-- The frequency sequence sends bytes to MODE1 and PRESCALE only (41_prescale.md R95). -/
theorem eq_of_mem_stores_freqTrace {p m : Byte} {e : BusEvent} {dev reg v : Byte} (he : e ∈ freqTrace p m)
    (hs : ((dev, reg), v) ∈ e.stores) : (dev, reg) = (0x40#8, 0x00#8) ∨ (dev, reg) = (0x40#8, 0xFE#8) := by
  simp only [freqTrace, List.mem_cons, List.not_mem_nil, or_false] at he
  obtain rfl | rfl | rfl | rfl | rfl | rfl := he <;> simp_all [BusEvent.stores]

/-- Settles O37: a SET_FREQ that faults adds no event, and one that runs adds the six of its sequence
(`eq_of_mem_stores_freqTrace`). -/
theorem setFreqReachesOnlyMode1AndPrescale : Obligations.SetFreqReachesOnlyMode1AndPrescale := by
  intro s t f dev reg h hmode hpresc
  obtain ⟨hf, rfl⟩ := runCommand_next h
  obtain ⟨-, e⟩ | ⟨-, -, e⟩ | ⟨-, -, e⟩ := setFreqSeq_cases Config.hw f.toNat s <;> rw [operandVal, e]
  · rfl
  · rfl
  · rw [go_state, freqBusSeq_trace]
    refine lastWritten_append fun e he v hs => ?_
    obtain hreg | hreg := eq_of_mem_stores_freqTrace he hs
    · exact hmode hreg
    · exact hpresc hreg

end Sys2Proof.Machine
end

section
/-! SET_PWM and the servo commands: the window they load, the registers they reach and what they leave alone
(42_channel_load.md, 43_servo.md). -/

namespace Sys2Proof.Machine

variable {s t u : State}

/-- The window's bytes are those of its operands, and its base is that of the channel (42_channel_load.md R105,
R106). -/
theorem windowEvent_operands (ch : Byte) (on off : Operand) :
    windowEvent Config.hw ch.toNat on.toNat off.toNat = .wrBlk 0x40#8 (BitVec.ofNat 8 (0x06 + 4 * ch.toNat))
      (on.extractLsb' 0 8) (on.extractLsb' 8 8) (off.extractLsb' 0 8) (off.extractLsb' 8 8) := by
  have hlo (x : Operand) : lo8 x.toNat = x.extractLsb' 0 8 := BitVec.eq_of_toNat_eq (by simp [lo8])
  have hhi (x : Operand) : hi8 x.toNat = x.extractLsb' 8 8 :=
    BitVec.eq_of_toNat_eq (by simp [hi8, Nat.shiftRight_eq_div_pow])
  simp [windowEvent, chanBase, hlo, hhi, BitVec.ofNat_add]

/-- On a valid channel SET_PWM is one block write (42_channel_load.md R105). -/
theorem exec_setPwm_of_valid {ch : Byte} (on off : Operand) (hf : s.fault = 0#3) (hch : ch.toNat ≤ 15) :
    exec (.setPwm ch on off) s = .next (transact (windowEvent Config.hw ch.toNat on.toNat off.toNat) s) := by
  rw [exec_setPwm ch on off hf, channelLoad_valid s (Nat.lt_succ_of_le hch) (Nat.le_of_lt_succ on.isLt)
    (Nat.le_of_lt_succ off.isLt), go_state]

/-- Settles O39: a transaction adds its event, here the window's (`windowEvent_operands`), and keeps the block's
state. -/
theorem setPwmLoadsTheWindow : Obligations.SetPwmLoadsTheWindow := fun s ch on off hf hch =>
  ⟨_, exec_setPwm_of_valid on off hf hch, by rw [transact_trace, windowEvent_operands],
    rfl, rfl, rfl, rfl, rfl, rfl, rfl, rfl, rfl⟩

/-- The byte last sent to a register after a block write that reaches it. -/
theorem lastWritten_wrBlk (tr : List BusEvent) (dev reg d0 d1 d2 d3 : Byte) :
    lastWritten (tr ++ [.wrBlk dev reg d0 d1 d2 d3]) dev reg = some d0 ∧
    lastWritten (tr ++ [.wrBlk dev reg d0 d1 d2 d3]) dev (reg + 1#8) = some d1 ∧
    lastWritten (tr ++ [.wrBlk dev reg d0 d1 d2 d3]) dev (reg + 2#8) = some d2 ∧
    lastWritten (tr ++ [.wrBlk dev reg d0 d1 d2 d3]) dev (reg + 3#8) = some d3 := by
  simp [lastWritten, BusEvent.stores, List.lookup_cons, beq_eq_decide]

/-- Settles O44: the four bytes of a block write go to the registers from its base up (`lastWritten_wrBlk`). -/
theorem channelRegistersAreLittleEndian : Obligations.ChannelRegistersAreLittleEndian := by
  intro s t ch on off hch h
  obtain ⟨hf, -⟩ := exec_effect h
  rw [exec_setPwm_of_valid on off hf hch] at h
  obtain rfl := Host.Outcome.next.inj h
  rw [transact_trace, windowEvent_operands]
  simpa only [BitVec.ofNat_add] using lastWritten_wrBlk s.trace 0x40#8 (BitVec.ofNat 8 (0x06 + 4 * ch.toNat)) _ _ _ _

end Sys2Proof.Machine
end

section
/-! What a channel load reaches and what the servo commands leave alone (42_channel_load.md, 43_servo.md). -/

namespace Sys2Proof.Machine

variable {s t u : State}

/-- The registers of a channel's window (20_memory.md R41, R43). -/
theorem eq_chanBase_of_mem_stores_windowEvent {n on off : Nat} {dev reg v : Byte}
    (h : ((dev, reg), v) ∈ (windowEvent Config.hw n on off).stores) :
    ∃ k < 4, (dev, reg) = (0x40#8, chanBase Config.hw n + BitVec.ofNat 8 k) := by
  simp only [windowEvent, BusEvent.stores, Config.hw_devAddr, List.mem_cons, List.not_mem_nil, or_false,
    Prod.mk.injEq] at h
  obtain ⟨⟨rfl, rfl⟩, -⟩ | ⟨⟨rfl, rfl⟩, -⟩ | ⟨⟨rfl, rfl⟩, -⟩ | ⟨⟨rfl, rfl⟩, -⟩ := h
  · exact ⟨0, by omega, by simp⟩
  · exact ⟨1, by omega, rfl⟩
  · exact ⟨2, by omega, rfl⟩
  · exact ⟨3, by omega, rfl⟩

/-- A channel load adds its window to the trace or nothing (42_channel_load.md R105, R107, R108). -/
theorem channelLoad_trace (ch on off : Nat) (s : State) :
    (channelLoad Config.hw ch on off s).state.trace = s.trace ∨
    (channelLoad Config.hw ch on off s).state.trace = s.trace ++ [windowEvent Config.hw ch on off] := by
  obtain ⟨-, e⟩ | ⟨-, -, e⟩ | ⟨-, -, -, e⟩ := channelLoad_cases Config.hw ch on off s <;> rw [e]
  · exact .inl rfl
  · exact .inl rfl
  · exact .inr rfl

/-- What SET_PWM, and a servo command on an initialised block, can add to the trace: one window of their channel. -/
theorem exec_load_trace {i : Instr} {ch : Byte} {x y : Operand}
    (hi : i = .setPwm ch x y ∨ s.initialized = true ∧ (i = .servo ch x ∨ i = .servoPulse ch x))
    (h : exec i s = .next t) :
    t.trace = s.trace ∨ ∃ on off, t.trace = s.trace ++ [windowEvent Config.hw ch.toNat on off] := by
  have hload (v : Nat) (htr : t.trace = s.trace ++ servoLoadTrace ch v) :
      t.trace = s.trace ∨ ∃ on off, t.trace = s.trace ++ [windowEvent Config.hw ch.toNat on off] := by
    obtain hch | hch := Nat.lt_or_ge ch.toNat 16
    · exact .inr ⟨0, v, by rw [htr, servoLoadTrace_of_valid hch]⟩
    · exact .inl (by rw [htr, servoLoadTrace_of_invalid hch, List.append_nil])
  obtain ⟨hf, -⟩ := exec_effect h
  obtain rfl | ⟨hini, rfl | rfl⟩ := hi
  · rw [exec_setPwm ch x y hf] at h
    obtain rfl := Host.Outcome.next.inj h
    exact (channelLoad_trace ch.toNat x.toNat y.toNat s).imp_right fun htr => ⟨_, _, htr⟩
  · rw [exec_servo_of_ensureInit ch x hf (ensureInit_of_initialized hini)] at h
    obtain rfl := Host.Outcome.next.inj h
    obtain ⟨-, htr⟩ := loadAngle_trace ch x s
    split at htr
    · exact .inl (by rw [htr, List.append_nil])
    · exact hload _ htr
  · rw [exec_servoPulse_of_ensureInit ch x hf (ensureInit_of_initialized hini)] at h
    obtain rfl := Host.Outcome.next.inj h
    exact hload _ (loadPulse_trace ch x s).2

/-- Settles O43: the one event such a command can add is a window of its channel (`exec_load_trace`), which sends
bytes to the channel's four registers (`eq_chanBase_of_mem_stores_windowEvent`). -/
theorem channelLoadReachesOnlyItsChannel : Obligations.ChannelLoadReachesOnlyItsChannel := by
  intro s t ch x y i dev reg hi h hreg
  obtain htr | ⟨on, off, htr⟩ := exec_load_trace hi h
  · rw [htr]
  · rw [htr]
    refine lastWritten_append (List.forall_mem_singleton.2 fun v hs => ?_)
    obtain ⟨k, hk, heq⟩ := eq_chanBase_of_mem_stores_windowEvent hs
    exact hreg k hk heq

/-- What a channel load leaves alone besides INITIALIZED: latches, reads and waits (42_channel_load.md R105). -/
theorem channelLoad_frame (c : Config) (ch on off : Nat) (s : State) :
    (channelLoad c ch on off s).state.oldmode = s.oldmode ∧ (channelLoad c ch on off s).state.presc = s.presc ∧
    (channelLoad c ch on off s).state.pulse = s.pulse ∧ (channelLoad c ch on off s).state.reads = s.reads ∧
    (channelLoad c ch on off s).state.waits = s.waits := by
  obtain ⟨-, e⟩ | ⟨-, -, e⟩ | ⟨-, -, -, e⟩ := channelLoad_cases c ch on off s <;> rw [e] <;>
    exact ⟨rfl, rfl, rfl, rfl, rfl⟩

/-- The load of a pulse width writes DUTY and no other latch (43_servo.md R118). -/
theorem loadPulse_frame (c : Config) (ch pulse : Nat) (s : State) :
    (loadPulse c ch pulse s).state.oldmode = s.oldmode ∧ (loadPulse c ch pulse s).state.presc = s.presc ∧
    (loadPulse c ch pulse s).state.pulse = s.pulse ∧ (loadPulse c ch pulse s).state.reads = s.reads ∧
    (loadPulse c ch pulse s).state.waits = s.waits := by
  rw [loadPulse, finally_state]
  exact channelLoad_frame c ch 0 _ (latchDuty _ s)

/-- The load of an angle writes PULSE and DUTY and no other latch (43_servo.md R117). -/
theorem loadAngle_frame (c : Config) (ch angle : Nat) (s : State) :
    (loadAngle c ch angle s).state.oldmode = s.oldmode ∧ (loadAngle c ch angle s).state.presc = s.presc ∧
    (loadAngle c ch angle s).state.reads = s.reads ∧ (loadAngle c ch angle s).state.waits = s.waits := by
  obtain ⟨hold, hpresc, -, hreads, hwaits⟩ := loadPulse_frame c ch
    (latchPulse (BitVec.ofNat 20 (angleToPulse c angle)) s).pulse.toNat
    (latchPulse (BitVec.ofNat 20 (angleToPulse c angle)) s)
  rw [loadAngle, finally_state]
  exact ⟨hold, hpresc, hreads, hwaits⟩

theorem observation_eq_iff {tr : List BusEvent} {b : Bool} {c : BitVec 3} :
    t.observation = (tr, b, c) ↔ t.trace = tr ∧ t.initialized = b ∧ t.fault = c := by
  simp [State.observation]

/-- Settles O45: what is to see after it is `exec_servo_observation`, the host's inputs are kept by every command
(`exec_effect`), and on an initialised block SERVO is its load alone (`loadAngle_frame`). -/
theorem servoDrivesTheChannel : Obligations.ServoDrivesTheChannel := by
  intro s ch d hf hd
  obtain ⟨t, hx, hobs⟩ := exec_servo_observation ch d hf
  have hnarrow : ¬ (ch.toNat ≤ 15 ∧ 31940 ≤ d.toNat) := by omega
  rw [if_neg hnarrow, if_neg hnarrow] at hobs
  obtain ⟨htr, hini, hft⟩ := observation_eq_iff.1 hobs
  obtain ⟨-, hpend, -⟩ := exec_effect hx
  refine ⟨t, hx, htr, hini, hft.trans hf.symm, hpend, fun hi => ?_⟩
  rw [exec_servo_of_ensureInit ch d hf (ensureInit_of_initialized hi)] at hx
  obtain rfl := Host.Outcome.next.inj hx
  exact loadAngle_frame Config.hw ch.toNat d.toNat s

/-- Settles O46: `exec_servo_observation` on a wide angle; the host's inputs are kept by every command. -/
theorem servoWithAWideAngleFaults : Obligations.ServoWithAWideAngleFaults := by
  intro s ch d hf hch hd
  obtain ⟨t, hx, hobs⟩ := exec_servo_observation ch d hf
  rw [if_pos ⟨hch, hd⟩, if_pos ⟨hch, hd⟩, List.append_nil] at hobs
  obtain ⟨htr, hini, hft⟩ := observation_eq_iff.1 hobs
  obtain ⟨-, hpend, -⟩ := exec_effect hx
  exact ⟨t, hx, hft, hini, htr, hpend⟩

/-- Settles O47: as for SERVO, and neither EnsureInit (`ensureInit_go`) nor the load (`loadPulse_frame`) writes
PULSE. -/
theorem servoPulseDrivesTheChannel : Obligations.ServoPulseDrivesTheChannel := by
  intro s ch p hf
  obtain ⟨t, hx, hobs⟩ := exec_servoPulse_observation ch p hf
  obtain ⟨htr, hini, hft⟩ := observation_eq_iff.1 hobs
  obtain ⟨-, hpend, -⟩ := exec_effect hx
  obtain ⟨u, hens, -, -, hpulse, -⟩ := ensureInit_go s
  obtain ⟨hold, hpresc, hpulse', hreads, hwaits⟩ := loadPulse_frame Config.hw ch.toNat p.toNat u
  obtain rfl := Host.Outcome.next.inj ((exec_servoPulse_of_ensureInit ch p hf hens).symm.trans hx)
  refine ⟨_, hx, htr, hini, hft.trans hf.symm, hpulse'.trans hpulse, hpend, fun hi => ?_⟩
  obtain rfl : s = u := Flow.go.inj ((ensureInit_of_initialized hi).symm.trans hens)
  exact ⟨hold, hpresc, hreads, hwaits⟩

/-- On an initialised block the events of a servo command, and the FAULT it ends with, are the command's own: they
do not depend on the state (43_servo.md R117, R118). -/
theorem servo_events_of_initialized {i : Instr} {ch : Byte} {x : Operand}
    (hi : i = .servo ch x ∨ i = .servoPulse ch x) :
    ∃ evs c, ∀ s : State, s.fault = 0#3 → s.initialized = true →
      ∃ t, exec i s = .next t ∧ t.trace = s.trace ++ evs ∧ t.fault = c := by
  have hlazy {s : State} (hini : s.initialized = true) : s.trace ++ lazyInitTrace s = s.trace := by
    simp [lazyInitTrace, hini]
  obtain rfl | rfl := hi
  · refine ⟨if ch.toNat ≤ 15 ∧ 31940 ≤ x.toNat then []
        else servoLoadTrace ch ((10 * x.toNat + 600) * 4096 / 20000),
      if ch.toNat ≤ 15 ∧ 31940 ≤ x.toNat then 5#3 else 0#3, fun s hf hini => ?_⟩
    obtain ⟨t, hx, hobs⟩ := exec_servo_observation ch x hf
    obtain ⟨htr, -, hft⟩ := observation_eq_iff.1 hobs
    exact ⟨t, hx, hlazy hini ▸ htr, hft⟩
  · refine ⟨servoLoadTrace ch (x.toNat * 4096 / 20000), 0#3, fun s hf hini => ?_⟩
    obtain ⟨t, hx, hobs⟩ := exec_servoPulse_observation ch x hf
    obtain ⟨htr, -, hft⟩ := observation_eq_iff.1 hobs
    exact ⟨t, hx, hlazy hini ▸ htr, hft⟩

/-- Settles O54: SET_FREQ leaves INITIALIZED alone (`setFreqSeq_initialized`), and on an initialised block what a servo
command emits is its own (`servo_events_of_initialized`). -/
theorem setFreqLeavesTheServoConverterAlone : Obligations.SetFreqLeavesTheServoConverterAlone := by
  intro s t f ch x i hini h hft hi
  obtain ⟨hf, rfl⟩ := runCommand_next h
  obtain ⟨evs, c, hev⟩ := servo_events_of_initialized hi
  obtain ⟨u, hu, hutr, huf⟩ := hev s hf hini
  obtain ⟨v, hv, hvtr, hvf⟩ := hev _ hft ((setFreqSeq_initialized ..).trans hini)
  exact ⟨u, v, evs, hu, hv, hutr, hvtr, huf.trans hvf.symm⟩

end Sys2Proof.Machine
end

section
/-! One step of the block: what it runs (10_state.md R25, R27), the fault of every command word (60_exceptions.md
R132 to R135), and where FAULT and INITIALIZED are written (10_state.md R20, R21). -/

namespace Sys2Proof.Machine

variable {s t : State} {w : CmdWord} {rest : List HostInput}

theorem dropInput_of_cons {x : HostInput} (hp : s.pending = x :: rest) : dropInput s = { s with pending := rest } := by
  rw [dropInput, hp, List.tail_cons]

/-- Settles O9: a word that decodes is run on the state with that word taken (`step_command`). -/
theorem stepRunsTheDecodedCommand : Obligations.StepRunsTheDecodedCommand := fun s w rest i hp hd => by
  rw [step_command hp hd, dropInput_of_cons hp]

/-- Settles O10: a 48-bit word is placed whole, and taking it gives the state it was placed in. -/
theorem placedWordIsRunNext : Obligations.PlacedWordIsRunNext := by
  intro s w i hd
  have hw : BitVec.ofNat 48 (w.toNat % 2 ^ 48) = w := by
    rw [Nat.mod_eq_of_lt w.isLt, BitVec.ofNat_toNat, BitVec.setWidth_eq]
  rw [withFetchWord_eq_issue, hw, step_command (issue_pending s w) hd]
  rfl

/-- With no host input a step is a wait. -/
theorem step_of_no_input (hf : s.fault = 0#3) (hp : s.pending = []) : step s = .next s := by
  simp [step, nextInput, hp, idle, unlessFaulted, hf]

/-- A reset as the next input is taken in every state (60_exceptions.md R136). -/
theorem step_reset (hp : s.pending = .reset :: rest) : step s = .next (resetBlock (dropInput s)) := by
  simp [step, nextInput, hp]

/-- Settles O11. -/
theorem blockWithNoInputWaits : Obligations.BlockWithNoInputWaits := fun _ => step_of_no_input

/-- Settles O13: `step_reset`, by the fields of `resetBlock`. -/
theorem resetGivesAFreshBlock : Obligations.ResetGivesAFreshBlock := fun s rest hp =>
  ⟨_, step_reset hp, rfl, rfl, rfl, by simp [hp], rfl⟩

/-- Settles O14. -/
theorem resetStateIsFresh : Obligations.ResetStateIsFresh := ⟨rfl, rfl, rfl⟩

/-- The code of the fault table for the fields of a word (60_exceptions.md R132). -/
def fieldsFault (f : CmdFields) : BitVec 3 := faultCode f.op.toNat f.ch.toNat f.a.toNat f.b.toNat

theorem expectedFault_eq_fieldsFault (w : CmdWord) : expectedFault w = fieldsFault (CmdFields.ofWord w) := rfl

theorem faultCode_le (op ch a b : Nat) : (faultCode op ch a b).toNat ≤ 5 := by
  unfold faultCode
  split_ifs <;> decide

theorem fieldsFault_of_illegal {f : CmdFields} (h : f.legalOp = false) : fieldsFault f = 1#3 := by
  simp only [CmdFields.legalOp, decide_eq_false_iff_not] at h
  exact if_pos (by omega)

theorem fieldsFault_of_reserved {f : CmdFields} (h : f.reservedZero = false) : fieldsFault f = 2#3 := by
  have hbyte {x : Byte} (hx : x ≠ 0#8) : x.toNat ≠ 0 := fun h0 => hx (BitVec.eq_of_toNat_eq h0)
  have hoperand {x : Operand} (hx : x ≠ 0#16) : x.toNat ≠ 0 := fun h0 => hx (BitVec.eq_of_toNat_eq h0)
  obtain ⟨hop, hz⟩ | ⟨hop, hz⟩ | ⟨hop | hop, hz⟩ := reservedZero_eq_false_iff.1 h
  · have := hz.imp hbyte (Or.imp hoperand hoperand)
    simp [fieldsFault, faultCode, hop, this]
  · have := hz.imp hbyte hoperand
    simp [fieldsFault, faultCode, hop, this]
  · simp [fieldsFault, faultCode, hop, hoperand hz]
  · simp [fieldsFault, faultCode, hop, hoperand hz]

/-- The fault of a SET_FREQ depends on its frequency (41_prescale.md R92 to R94). -/
theorem fieldsFault_setFreq (f : Operand) : fieldsFault (Instr.setFreq f).fields =
    if f.toNat = 0 then 3#3 else if f.toNat ≤ 23 ∨ 6104 ≤ f.toNat then 4#3 else 0#3 := by
  simp [fieldsFault, faultCode, Instr.fields]

/-- The fault of a SERVO depends on its channel and its angle (43_servo.md R121). -/
theorem fieldsFault_servo (ch : Byte) (angle : Operand) : fieldsFault (Instr.servo ch angle).fields =
    if ch.toNat ≤ 15 ∧ 31940 ≤ angle.toNat then 5#3 else 0#3 := by
  simp [fieldsFault, faultCode, Instr.fields]

theorem fieldsFault_setPwm (ch : Byte) (on off : Operand) : fieldsFault (Instr.setPwm ch on off).fields = 0#3 := by
  simp [fieldsFault, faultCode, Instr.fields]

theorem fieldsFault_servoPulse (ch : Byte) (pulse : Operand) :
    fieldsFault (Instr.servoPulse ch pulse).fields = 0#3 := by
  simp [fieldsFault, faultCode, Instr.fields]

/-- Why fields decode to no command (30_encoding.md R66, R67). -/
theorem decodeFields_error_cases {f : CmdFields} {d : DecodeFault} (h : decodeFields f = .error d) :
    d = .illegalOpcode ∧ f.legalOp = false ∨ d = .reservedField ∧ f.reservedZero = false := by
  rw [reservedZero_eq_false_iff]
  unfold decodeFields at h
  split_ifs at h with h1 hz1 h2 hz2 h3 h4 hz4 h5 hz5 <;> obtain rfl := Except.error.inj h
  · exact .inr ⟨rfl, .inl ⟨h1, hz1⟩⟩
  · exact .inr ⟨rfl, .inr (.inl ⟨h2, hz2⟩)⟩
  · exact .inr ⟨rfl, .inr (.inr ⟨.inl h4, hz4⟩)⟩
  · exact .inr ⟨rfl, .inr (.inr ⟨.inr h5, hz5⟩)⟩
  · exact .inl ⟨rfl, decide_eq_false (by bv_omega)⟩

/-- A word that does not decode raises the decode fault's cause, as the fault table says (60_exceptions.md R134). -/
theorem expectedFault_of_error {d : DecodeFault} (hd : decode w = .error d) :
    expectedFault w = (decodeCause d).code := by
  obtain ⟨rfl, hill⟩ | ⟨rfl, hres⟩ := decodeFields_error_cases hd
  · exact fieldsFault_of_illegal hill
  · exact fieldsFault_of_reserved hres

theorem expectedFault_of_ok {i : Instr} (hd : decode w = .ok i) : expectedFault w = fieldsFault i.fields := by
  rw [expectedFault_eq_fieldsFault, decode_ok_iff.1 hd]

/-- What FAULT holds after SetFreqSeq, and that nothing else happens where it raises a fault (41_prescale.md R92 to
R94). -/
theorem setFreqSeq_fault (f : Operand) (hf : s.fault = 0#3) :
    (setFreqSeq Config.hw f.toNat s).state.fault = fieldsFault (Instr.setFreq f).fields ∧
    ((setFreqSeq Config.hw f.toNat s).state.fault ≠ 0#3 →
      (setFreqSeq Config.hw f.toNat s).state.trace = s.trace ∧
      (setFreqSeq Config.hw f.toNat s).state.initialized = s.initialized) := by
  rw [fieldsFault_setFreq]
  obtain ⟨h0, e⟩ | ⟨h0, hp, e⟩ | ⟨h0, hp, e⟩ := setFreqSeq_cases Config.hw f.toNat s <;> rw [e]
  · exact ⟨(if_pos h0).symm, fun _ => ⟨rfl, rfl⟩⟩
  · have hout := prescaleFits_eq_false_iff.1 hp
    have hrange := prescale_inRange_iff (Nat.pos_of_ne_zero h0)
    rw [if_neg h0, if_pos (by omega)]
    exact ⟨rfl, fun _ => ⟨rfl, rfl⟩⟩
  · have hin := (prescale_inRange_iff (Nat.pos_of_ne_zero h0)).1 (prescaleFits_iff.1 hp)
    simp [h0, show ¬ (f.toNat ≤ 23 ∨ 6104 ≤ f.toNat) by omega, hf]

/-- A block that is not faulted has an outcome for every command, with FAULT as the fault table says. A fault raised
in a SET_FREQ comes before any event, one raised in a SERVO after those of EnsureInit (60_exceptions.md R132, R135).
-/
theorem exec_fault (i : Instr) (hf : s.fault = 0#3) :
    ∃ t, exec i s = .next t ∧ t.fault = fieldsFault i.fields ∧
      (t.fault ≠ 0#3 → t.fault ≠ 5#3 → t.trace = s.trace ∧ t.initialized = s.initialized) ∧
      (t.fault = 5#3 → t.trace = s.trace ++ lazyInitTrace s ∧ t.initialized = true) := by
  cases i with
  | init =>
    obtain ⟨u, hens, -, hfu, -⟩ := ensureInit_go s
    have h0 := hfu.trans hf
    exact ⟨u, exec_init_of_ensureInit hf hens, h0, fun hne => absurd h0 hne, by simp [h0]⟩
  | setFreq f =>
    obtain ⟨hft, hframe⟩ := setFreqSeq_fault f hf
    exact ⟨_, exec_setFreq f hf, hft, fun hne _ => hframe hne,
      fun h5 => absurd h5 (setFreqSeq_fault_ne_dutyRange Config.hw f.toNat hf)⟩
  | setPwm ch on off =>
    have h0 := (channelLoad_operand_fault Config.hw ch.toNat on off s).trans hf
    exact ⟨_, exec_setPwm ch on off hf, h0.trans (fieldsFault_setPwm ch on off).symm, fun hne => absurd h0 hne,
      by simp [h0]⟩
  | servo ch angle =>
    obtain ⟨t, hx, hobs⟩ := exec_servo_observation ch angle hf
    obtain ⟨htr, hini, hft⟩ := observation_eq_iff.1 hobs
    refine ⟨t, hx, hft.trans (fieldsFault_servo ch angle).symm, ?_⟩
    split at hft
    · rw [if_pos ‹_›, List.append_nil] at htr
      exact ⟨fun _ h5 => absurd hft h5, fun _ => ⟨htr, hini⟩⟩
    · exact ⟨fun hne => absurd hft hne, by simp [hft]⟩
  | servoPulse ch pulse =>
    obtain ⟨t, hx, h0⟩ := exec_servoPulse_fault ch pulse hf
    exact ⟨t, hx, h0.trans (fieldsFault_servoPulse ch pulse).symm, fun hne => absurd h0 hne, by simp [h0]⟩

/-- A step that runs no command word leaves FAULT 0: it waits, which a faulted block does not, or it resets. -/
theorem step_fault_of_no_command (h : step s = .next t) (hn : ∀ w, nextInput s ≠ some (.command w)) :
    t.fault = 0#3 := by
  have hcommand {w : CmdWord} {rest : List HostInput} (hp : s.pending = .command w :: rest) : t.fault = 0#3 :=
    absurd (by simp [nextInput, hp]) (hn w)
  obtain ⟨-, hf, rfl⟩ | ⟨rest, -, rfl⟩ | ⟨w, rest, d, hp, -⟩ | ⟨w, rest, i, hp, -⟩ := step_next_cases h
  · exact hf
  · rfl
  · exact hcommand hp
  · exact hcommand hp

/-- Settles O15: a word that does not decode raises its decode fault and nothing more (`step_reject`), and a command
ends as `exec_fault` says. -/
theorem everyWordRaisesItsFaultAndNoOther : Obligations.EveryWordRaisesItsFaultAndNoOther := by
  refine ⟨fun s w rest hf hp => ?_, fun w => faultCode_le _ _ _ _, fun s t h hn => step_fault_of_no_command h hn⟩
  cases hd : decode w with
  | error d =>
    have h5 : (decodeCause d).code ≠ 5#3 := by cases d <;> decide
    exact ⟨_, step_reject hp hd hf, by simp [hp], (expectedFault_of_error hd).symm, fun _ _ => ⟨rfl, rfl⟩,
      fun h => absurd h h5⟩
  | ok i =>
    obtain ⟨t, hx, hft, hearly, hlate⟩ := exec_fault (s := dropInput s) i hf
    obtain ⟨-, hpend, -⟩ := exec_effect hx
    exact ⟨t, (step_command hp hd).trans hx, by simp [hpend, hp], hft.trans (expectedFault_of_ok hd).symm, hearly,
      hlate⟩

/-- Only a reset is taken by a faulted block (60_exceptions.md R133). -/
theorem fault_eq_zero_of_step (h : step s = .next t) (hr : nextInput s ≠ some .reset) : s.fault = 0#3 := by
  by_contra hf
  rw [step_of_fault hf hr] at h
  cases h

/-- FAULT after a step is 0 or one of the five causes of the fault table (60_exceptions.md R132). -/
theorem step_fault_le (h : step s = .next t) : t.fault.toNat ≤ 5 := by
  obtain ⟨hword, hcode, hother⟩ := everyWordRaisesItsFaultAndNoOther
  cases hp : s.pending with
  | nil => simp [hother s t h (by simp [nextInput, hp])]
  | cons x rest =>
    cases x with
    | reset => simp [hother s t h (by simp [nextInput, hp])]
    | command w =>
      obtain ⟨u, hu, -, hft, -⟩ := hword s w rest (fault_eq_zero_of_step h (by simp [nextInput, hp])) hp
      obtain rfl := Host.Outcome.next.inj (hu.symm.trans h)
      rw [hft]
      exact hcode w

/-- Settles O16: a step that is no reset is one of a block that is not faulted (`fault_eq_zero_of_step`), and leaves a
listed code in FAULT (`step_fault_le`). -/
theorem faultIsWrittenOnEntryOnly : Obligations.FaultIsWrittenOnEntryOnly := by
  intro s t h hne
  by_cases hr : nextInput s = some .reset
  · exact .inl hr
  · have hf := fault_eq_zero_of_step h hr
    have hpos : t.fault.toNat ≠ 0 := fun h0 => hne ((BitVec.eq_of_toNat_eq h0).trans hf.symm)
    exact .inr ⟨hf, Nat.pos_of_ne_zero hpos, step_fault_le h⟩

/-- A command that changes INITIALIZED has set it and has added a complete InitSeq trace (40_init.md R83). -/
theorem effect_sets_initialized (h : Effect s t) (hne : t.initialized ≠ s.initialized) :
    t.initialized = true ∧ ∃ m evs, t.trace = s.trace ++ initTrace m ++ evs := by
  obtain ⟨-, -, ⟨hkept, -⟩ | ⟨-, hset, m, ⟨htr, -⟩ | ⟨-, n, on, off, -, htr⟩⟩⟩ := h
  · exact absurd hkept hne
  · exact ⟨hset, m, [], by rw [htr, List.append_nil]⟩
  · exact ⟨hset, m, _, htr⟩

/-- Settles O17: a wait and a word that does not decode keep INITIALIZED, a reset clears it, and a command can only
set it (`effect_sets_initialized`). -/
theorem initializedIsSetByInitSeqOnly : Obligations.InitializedIsSetByInitSeqOnly := by
  intro s t h hne
  obtain ⟨-, -, rfl⟩ | ⟨rest, hp, rfl⟩ | ⟨w, rest, d, -, -, -, rfl⟩ | ⟨w, rest, i, -, -, hx⟩ := step_next_cases h
  · exact absurd rfl hne
  · exact .inr ⟨rfl, by simp [nextInput, hp]⟩
  · exact absurd rfl hne
  · exact .inl (effect_sets_initialized (s := dropInput s) (exec_effect hx) hne)

end Sys2Proof.Machine
end

section
/-! How a run ends (70_reset_and_hazards.md R162). -/

namespace Sys2Proof.Machine

/-- A command word adds one step to the run, leaves the fault table's code in FAULT and its result in the run. -/
theorem Run.next_of_word {r : Run} {w : CmdWord} {rest : List HostInput} (hf : r.state.fault = 0#3)
    (hp : r.state.pending = .command w :: rest) :
    ∃ r', r.next = some r' ∧ r'.state.pending = rest ∧ r'.state.fault = expectedFault w ∧
      r'.last = some (if expectedFault w = 0#3 then .done else .faulted (expectedFault w)) := by
  obtain ⟨hword, -⟩ := everyWordRaisesItsFaultAndNoOther
  obtain ⟨t, hx, hpend, hft, -⟩ := hword r.state w rest hf hp
  exact ⟨_, Run.next_of_step hx, hpend, hft, by simp [commandResult_command hp, notFaulted, hft]⟩

/-- Settles O55: a word leaves the fault table's code in FAULT and its result in the run (`Run.next_of_word`), and a
reset leaves the run's last result as it was. -/
theorem runEndsWellByALastCommandDone : Obligations.RunEndsWellByALastCommandDone := by
  refine ⟨fun r w rest hf hp => ?word, fun r rest hp => ?reset, fun s => by simp [Run.endedWell]⟩
  case word =>
    obtain ⟨r', hnext, hpend, hft, hlast⟩ := Run.next_of_word hf hp
    refine ⟨r', hnext, hpend, hlast, ?_⟩
    rw [Run.endedWell_iff, lastIssued_iff, hpend, hft, hlast]
    simp
  case reset =>
    refine ⟨_, Run.next_of_step (step_reset hp), by simp [hp], by simp [commandResult_reset hp], ?_⟩
    rw [Run.endedWell_iff, lastIssued_iff, commandResult_reset hp]
    simp [hp]

/-- The last step of a run of several. -/
theorem Run.steps_succ_last (n : Nat) (r : Run) : r.steps (n + 1) = (r.steps n).bind Run.next := by
  induction n generalizing r with
  | zero =>
    rw [Run.steps_succ, Run.steps_zero, Option.bind_some]
    cases r.next <;> rfl
  | succ n ih =>
    rw [Run.steps_succ, Run.steps_succ n]
    cases r.next with
    | none => rfl
    | some r' => exact ih r'

/-- Words that raise no fault are run one by one. The block is not faulted after them, and the run's last command, if it
has run any since one that was done, has completed with Done. -/
theorem Run.steps_of_legal_words (words : List CmdWord) {r : Run} {rest : List HostInput} (hf : r.state.fault = 0#3)
    (hp : r.state.pending = words.map .command ++ rest) (hlegal : ∀ w ∈ words, expectedFault w = 0#3) :
    ∃ r', r.steps words.length = some r' ∧ r'.state.fault = 0#3 ∧ r'.state.pending = rest ∧
      (r.last = some .done ∨ words ≠ [] → r'.last = some .done) := by
  induction words generalizing r with
  | nil => exact ⟨r, rfl, hf, hp, by simp⟩
  | cons w words ih =>
    obtain ⟨hw, hwords⟩ := List.forall_mem_cons.1 hlegal
    obtain ⟨r₁, hnext, hpend, hft, hlast⟩ := Run.next_of_word hf hp
    obtain ⟨r', hsteps, hf', hp', hlast'⟩ := ih (hft.trans hw) hpend hwords
    exact ⟨r', by simp [hnext, hsteps], hf', hp', fun _ => hlast' (.inl (by rw [hlast, if_pos hw]))⟩

/-- A block that faulted on a word is stuck where the next input is no reset, and its run has not ended successfully
(60_exceptions.md R133, 70_reset_and_hazards.md R162). -/
theorem Run.stuck_of_fault {r : Run} (hf : r.state.fault ≠ 0#3) (hr : nextInput r.state ≠ some .reset) :
    r.state.stuck = true ∧ r.next = none ∧ r.endedWell = false :=
  ⟨by simp [State.stuck, notFaulted, hf, hr], Run.next_of_fault (step_of_fault hf hr), Run.endedWell_of_fault r.last hf⟩

/-- Settles O56: legal words run to their end (`Run.steps_of_legal_words`), and the word that faults after them leaves a
block that is stuck (`Run.stuck_of_fault`), with command words alone among its inputs. -/
theorem runOfLegalWordsEndsWell : Obligations.RunOfLegalWordsEndsWell := by
  refine ⟨fun s words hf hp hne hlegal => ?legal, fun s before after w hf hp hlegal hw => ?faulting⟩
  case legal =>
    obtain ⟨r, hsteps, hft, hpend, hlast⟩ :=
      Run.steps_of_legal_words words (r := Run.start s) (rest := []) hf (by simpa using hp) hlegal
    exact ⟨r, hsteps, Run.endedWell_iff.2 ⟨lastIssued_iff.2 (by simp [hpend]), hlast (.inr hne), hft⟩⟩
  case faulting =>
    obtain ⟨r, hsteps, hft, hpend, -⟩ :=
      Run.steps_of_legal_words before (r := Run.start s) (rest := .command w :: after.map .command) hf
        (by simpa using hp) hlegal
    obtain ⟨r', hnext, hpend', hft', -⟩ := Run.next_of_word hft hpend
    have hr : nextInput r'.state ≠ some .reset := by
      rw [nextInput, hpend']
      cases after <;> simp
    exact ⟨r', by rw [Run.steps_succ_last, hsteps]; exact hnext, hft', Run.stuck_of_fault (hft' ▸ hw) hr⟩

end Sys2Proof.Machine
end
